-- ==== Sys2Proof/Word.lean ====
section
/-! DEFINITION. The word types of the Hawk's special instructions (00_scope.md R4, R6). -/

namespace Sys2Proof

/-- A general register, a special register, an address: 32 bits (00_scope.md R4). -/
abbrev Word := BitVec 32

/-- The unit of main memory (20_memory.md R41). -/
abbrev Byte := BitVec 8

/-- An instruction word: every special instruction is 16 bits (30_encoding.md R55). -/
abbrev Half := BitVec 16

/-- A 4-bit register designator or selector field (30_encoding.md R55).
What 0 means is the mark of the field that holds it (R57). -/
abbrev RegNum := BitVec 4

/-- The two values of the PSW's level fields are 4 bits wide (10_state.md R18, R19). -/
abbrev Level := BitVec 4

end Sys2Proof
end

