-- ==== Sys2Proof/Config.lean ====
section
/-! DEFINITION. The parameters of 00_scope.md R5 as plain data, and the free values:
what the spec leaves open and the machine nevertheless goes on with. A free value is an
opaque constant without a body: no proof can see what it is. -/

namespace Sys2Proof.Config

/-- Coprocessor k of the spec, k = 1..7, is the number k - 1 here (43_coprocessor.md R105). -/
abbrev CoId := Fin 7

/-- The special CPU registers the source does not define (10_state.md R26, R27):
`mmu i` is number 4 + i, reserved for the MMU interface; `other i` is number 9 + i. -/
inductive ExtraReg where
  | mmu (i : Fin 4)
  | other (i : Fin 7)
deriving DecidableEq, Repr

/-- `PSW_LAYOUT` (00_scope.md R5): the bit position of each named field of the PSW. -/
structure PswLayout where
  n : Fin 32
  z : Fin 32
  v : Fin 32
  c : Fin 32
  bcdc : Vector (Fin 32) 8
  oldLevel : Vector (Fin 32) 4
  level : Vector (Fin 32) 4
deriving DecidableEq, Repr

/-- A test of a value of COSTAT: the bits of `mask` have the values they have in `value`. -/
structure BitTest where
  mask : Word
  value : Word
deriving DecidableEq, Repr

/-- `COSTAT_LAYOUT` (00_scope.md R5, 10_state.md R28): `IMPL_MASK`, and the functions `enabled(v, k)`
and `selected(v)` as tables of tests. Coprocessor k is enabled by a value that meets one of its
tests, and the first test of `select` that a value meets names the coprocessor it selects. Every
pair of functions has such tables (`Machine.costatLayout_expresses`; log 8). -/
structure CostatLayout where
  implMask : Word
  enable : Vector (List BitTest) 7
  select : List (BitTest × CoId)
deriving DecidableEq, Repr

/-- `TRAP_VECTOR(cause)` (60_exceptions.md R146). -/
structure TrapVectors where
  memoryAddressing : Word
  unimplementedInstruction : Word
  privilegeViolation : Word
  coprocessorTrap : Word
deriving DecidableEq, Repr

/-- The two values of `PC_OPERAND_OFFSET` and `TPC_OFFSET`: 0 (the address of the instruction
itself) and 2 (the address of the next one), 00_scope.md R5. -/
inductive PcOffset where
  | thisInstruction
  | nextInstruction
deriving DecidableEq, Repr

/-- `RESERVED_POLICY` (00_scope.md R5): `trap` is trap(UnimplementedInstruction). -/
inductive ReservedPolicy where
  | refuse
  | trap
deriving DecidableEq, Repr

/-- `COGET_DST0` (00_scope.md R5). -/
inductive CogetDst0 where
  | discard
  | refuse
deriving DecidableEq, Repr

/-- The parameters the model takes as arguments (00_scope.md R5). They are fixed for a run
(10_state.md R31). -/
structure Params where
  /-- `HAS_COPROCESSORS`: true is the Hawk, false the Sparrowhawk. -/
  hasCoprocessors : Bool
  /-- `PRESENT(k)`. -/
  present : Vector Bool 7
  /-- `COSTAT_LAYOUT`. -/
  costatLayout : CostatLayout
  /-- `PSW_LAYOUT`. -/
  pswLayout : PswLayout
  /-- `PSW_IMPL_MASK`. -/
  pswImplMask : Word
  /-- `PC_OPERAND_OFFSET`. -/
  pcOperandOffset : PcOffset
  /-- `TPC_OFFSET`. -/
  tpcOffset : PcOffset
  /-- `TRAP_VECTOR`. -/
  trapVector : TrapVectors
  /-- `TRAP_LEVEL`. -/
  trapLevel : Level
  /-- `EXTRA_CPU_REGS`: which of the undefined special registers the CPU implements. -/
  extraCpuRegs : List ExtraReg
  /-- `RESERVED_POLICY`. -/
  reservedPolicy : ReservedPolicy
  /-- `COGET_DST0`. -/
  cogetDst0 : CogetDst0
  /-- `RESET_PC`. -/
  resetPc : Word
  /-- `RESET_LEVEL`. -/
  resetLevel : Level
deriving DecidableEq, Repr

/-- The four condition codes, in the order of the source's NZVC (10_state.md R16). -/
structure Nzvc where
  n : Bool
  z : Bool
  v : Bool
  c : Bool
deriving DecidableEq, Repr, Inhabited

/-- The state `CS[k]` of a coprocessor (10_state.md R29, R30). The spec leaves it abstract:
`code` stands for all of it that only the coprocessor can read (DESIGN CHOICE, log 9), and
`left[n]` is the number of its own steps after which it is first ready for register n. That
there is such a number is the law of 43_coprocessor.md R107 (log 11). -/
structure CoState where
  code : Nat
  left : Vector Nat 16
deriving DecidableEq, Repr, Inhabited

/-- What `CoRead` answers: the value, the four condition codes and the new state
(43_coprocessor.md R107). -/
structure CoReadResult where
  value : Word
  flags : Nzvc
  next : CoState
deriving DecidableEq, Repr, Inhabited

/-- `CoWrite` of `COPROC(k)` (43_coprocessor.md R107): left open by the source. -/
opaque coWrite : CoId → CoState → RegNum → Word → CoState

/-- `CoRead` of `COPROC(k)` (43_coprocessor.md R107): left open by the source. -/
opaque coRead : CoId → CoState → RegNum → CoReadResult

/-- What `CoStep` of `COPROC(k)` (43_coprocessor.md R107) leaves open: the new code, and the
steps left for a register the coprocessor was ready for. -/
opaque coStepOpen : CoId → CoState → CoState

/-- How many steps of its own a coprocessor takes before the next step of the CPU:
coprocessors run asynchronously (10_state.md R30; log 10). The first argument is the draw. -/
opaque coSchedule : Nat → CoId → Nat

/-- The state of a coprocessor that a write of COSTAT leaves disabled: unspecified
(43_coprocessor.md R114; log 15). -/
opaque coLost : Nat → CoId → CoState

/-- The value of TMA after a trap that memory addressing did not cause: a draw
(10_state.md R23; log 14). -/
opaque tmaDraw : Nat → Word

/-- The count CYC holds after a fetch, from the count before and a draw: how many memory
references a fetch is, and whether the count wraps, is not said (10_state.md R25; log 13). -/
opaque cycAfterFetch : Word → Nat → Word

/-- The value CPUGET reads from CYC, from the count held and a draw (10_state.md R25; log 13). -/
opaque cycRead : Word → Nat → Word

/-- The count CYC holds after CPUSET writes a value, from the count before, the value and a
draw: whether CPUSET may set it is not said (10_state.md R25; log 13). -/
opaque cycWrite : Word → Word → Nat → Word

/-- The read function of a register that `EXTRA_CPU_REGS` supplies, from what it holds and a
draw, for such a register may count clock cycles (44_cpu_special.md R132, 10_state.md R27; log 16). -/
opaque extraRead : ExtraReg → Word → Nat → Word

/-- The write function of a register that `EXTRA_CPU_REGS` supplies: what it holds afterwards
(44_cpu_special.md R132; log 16). -/
opaque extraWrite : ExtraReg → Word → Word → Word

end Sys2Proof.Config
end

