-- ==== Sys2Proof/Machine/Defaults.lean ====
section
/-! DEFINITION. The values `State.reset` gives the parameters: the defaults of 00_scope.md R5,
and, where the spec fixes no default or no reset value, the value the log names. A statement
about every state holds for every value of the parameters. -/

namespace Sys2Proof.Machine

open Config

/-- The value of a register at reset where the spec gives none (10_state.md R32; DESIGN CHOICE,
log 1). -/
def unspecifiedAtReset : Word := 0

/-- Default `PSW_LAYOUT` (10_state.md R15; PRESUMED, log 4). -/
def defaultPswLayout : PswLayout :=
  { n := 3, z := 2, v := 1, c := 0
    bcdc := #v[8, 9, 10, 11, 12, 13, 14, 15]
    oldLevel := #v[24, 25, 26, 27]
    level := #v[28, 29, 30, 31] }

/-- Default `PSW_IMPL_MASK` (10_state.md R20; PRESUMED, log 4). -/
def defaultPswImplMask : Word := 0xFF00FF0F

/-- Default `PC_OPERAND_OFFSET` (00_scope.md R5; log 6). -/
def defaultPcOperandOffset : PcOffset := .nextInstruction

/-- Default `TPC_OFFSET` (00_scope.md R5; log 6). -/
def defaultTpcOffset : PcOffset := .thisInstruction

/-- Default `TRAP_VECTOR` (60_exceptions.md R146; PRESUMED, log 7). -/
def defaultTrapVectors : TrapVectors :=
  { memoryAddressing := 0x10
    unimplementedInstruction := 0x20
    privilegeViolation := 0x30
    coprocessorTrap := 0x50 }

/-- Default `TRAP_LEVEL` (60_exceptions.md R150; PRESUMED, log 7). -/
def defaultTrapLevel : Level := 0

/-- Default `HAS_COPROCESSORS`: the Hawk (00_scope.md R5). -/
def defaultHasCoprocessors : Bool := true

/-- `PRESENT(k)` at reset: none, for no coprocessor is specified (43_coprocessor.md R107;
DESIGN CHOICE, log 8). -/
def defaultPresent : Vector Bool 7 := Vector.replicate 7 false

/-- The test that one bit of COSTAT is 1. -/
def bitIsSet (bit : Fin 32) : BitTest := { mask := 1#32 <<< bit.val, value := 1#32 <<< bit.val }

/-- The test that bits 10:8 of COSTAT hold a number. -/
def selectFieldIs (n : Nat) : BitTest := { mask := 0x700, value := BitVec.ofNat 32 (n * 0x100) }

/-- `COSTAT_LAYOUT` at reset (the spec fixes none; DESIGN CHOICE, log 8): coprocessor k is
enabled by bit k and selected by the value k of bits 10:8, and only bits 10:8 are implemented,
as no coprocessor is present. -/
def defaultCostatLayout : CostatLayout :=
  { implMask := 0x700
    enable := #v[[bitIsSet 1], [bitIsSet 2], [bitIsSet 3], [bitIsSet 4], [bitIsSet 5],
      [bitIsSet 6], [bitIsSet 7]]
    select := [(selectFieldIs 1, 0), (selectFieldIs 2, 1), (selectFieldIs 3, 2),
      (selectFieldIs 4, 3), (selectFieldIs 5, 4), (selectFieldIs 6, 5), (selectFieldIs 7, 6)] }

/-- Default `EXTRA_CPU_REGS`: empty (00_scope.md R5). -/
def defaultExtraCpuRegs : List ExtraReg := []

/-- Default `RESERVED_POLICY` (00_scope.md R5; log 17). -/
def defaultReservedPolicy : ReservedPolicy := .refuse

/-- Default `COGET_DST0` (00_scope.md R5; log 18). -/
def defaultCogetDst0 : CogetDst0 := .discard

/-- Default `RESET_PC` (70_reset_and_hazards.md R170; PRESUMED, log 2). -/
def defaultResetPc : Word := 0

/-- Default `RESET_LEVEL` (70_reset_and_hazards.md R170; PRESUMED, log 2). -/
def defaultResetLevel : Level := 0

/-- The parameters at reset. -/
def defaultParams : Params :=
  { hasCoprocessors := defaultHasCoprocessors
    present := defaultPresent
    costatLayout := defaultCostatLayout
    pswLayout := defaultPswLayout
    pswImplMask := defaultPswImplMask
    pcOperandOffset := defaultPcOperandOffset
    tpcOffset := defaultTpcOffset
    trapVector := defaultTrapVectors
    trapLevel := defaultTrapLevel
    extraCpuRegs := defaultExtraCpuRegs
    reservedPolicy := defaultReservedPolicy
    cogetDst0 := defaultCogetDst0
    resetPc := defaultResetPc
    resetLevel := defaultResetLevel }

end Sys2Proof.Machine
end

