-- ==== Sys2Proof/Machine/State.lean ====
section
/-! DEFINITION. The state of the machine (10_state.md R10), the reasons a step can stop, the
causes of a trap, and the state after reset. -/

namespace Sys2Proof.Machine

open Config

/-- Main memory: the launch memory as pairs of an address and its byte, addresses strictly
rising (`Memory.wf`). An address not listed is not admitted: reading it gives no byte
(20_memory.md R43, R48; log 21). -/
abbrev Memory := List Host.Cell

/-- The processor status word, by its named fields (10_state.md R15). Where the fields stand in
the 32-bit word is the parameter `PSW_LAYOUT`; a bit that is no field reads as zero
(44_cpu_special.md R129; log 5). -/
structure Psw where
  /-- N (R16). -/
  n : Bool
  /-- Z (R16). -/
  z : Bool
  /-- V (R16). -/
  v : Bool
  /-- C (R16). -/
  c : Bool
  /-- BCDC[0..7], bit i belonging to nibble i (R17; log 26). -/
  bcdc : BitVec 8
  /-- OLDLEVEL (R19). -/
  oldLevel : Level
  /-- LEVEL (R18). -/
  level : Level
deriving DecidableEq, Repr

/-- The state of the machine (10_state.md R10). `cfg` and `draws` are the model's own fields:
the parameters of the run (log 3) and the count of free values drawn (log 12). -/
structure State where
  /-- The parameters of 00_scope.md R5. -/
  cfg : Params
  /-- x[1]..x[15]: cell i holds x[i + 1] (R11). Designator 0 has no cell (R12). -/
  gpr : Vector Word 15
  /-- The program counter (R13). -/
  pc : Word
  /-- PSW, special register 0 (R15). -/
  psw : Psw
  /-- TPC, special register 1 (R22). -/
  tpc : Word
  /-- TMA, special register 2 (R23). -/
  tma : Word
  /-- TSV, special register 3 (R24). -/
  tsv : Word
  /-- CYC, special register 8 (R25). -/
  cyc : Word
  /-- Special registers 4 to 7 (R26). -/
  mmu : Vector Word 4
  /-- Special registers 9 to 15 (R27). -/
  extra : Vector Word 7
  /-- COSTAT, coprocessor register 0 (R28). -/
  costat : Word
  /-- CS[k]: cell k holds the state of coprocessor k + 1 (R29, R30). -/
  co : Vector CoState 7
  /-- Main memory (20_memory.md R40). -/
  mem : Memory
  /-- How many free values have been drawn (log 12). -/
  draws : Nat
deriving DecidableEq, Repr

/-- The causes of a trap (60_exceptions.md R145, R146). -/
inductive Trap where
  /-- A fetch of an address the launch memory does not admit (R148). -/
  | memoryAddressing (va : Word)
  /-- COGET or COSET on a Sparrowhawk, a reserved word under the policy `trap` (R147). -/
  | unimplementedInstruction
  /-- CPUGET, CPUSET or RTT at level 1111 (R149). -/
  | privilegeViolation
  /-- COGET or COSET of a register of a coprocessor that cannot be used (R151). -/
  | coprocessorTrap
deriving DecidableEq, Repr

/-- The faults of the machine: none. Every trap the spec describes is taken, as a next state,
and no rule of the spec stops the machine (log 43). -/
inductive Fault
deriving DecidableEq, Repr

/-- Why the model gives a state no meaning. -/
inductive Refusal where
  /-- An instruction whose meaning is not written: raised by no arm of `exec`. Safe. -/
  | notModelled (mnemonic : String)
  /-- The word fetched is no special instruction (30_encoding.md R63 b): raised by `step`.
  Safe: nothing is said of what the chip does. -/
  | notSpecialInstruction (word : Half)
  /-- fn 0110 or 0111, which the source does not define (30_encoding.md R63 a): raised by the
  meanings of those two rows. Safe. -/
  | undefinedFunctionCode
  /-- ADJUST with a selector the table does not list, under `RESERVED_POLICY = refuse`
  (41_adjust.md R90): raised by the meanings of those rows. Safe. -/
  | reservedAdjustSelector
  /-- ADJUST with dst = 0, under `RESERVED_POLICY = refuse` (41_adjust.md R90). Safe. -/
  | reservedAdjustDst0
  /-- PLUS with dst = 0, under `RESERVED_POLICY = refuse` (42_plus.md R102). Safe. -/
  | reservedPlusDst0
  /-- CPUGET or CPUSET of an undefined special register that `EXTRA_CPU_REGS` does not supply,
  under `RESERVED_POLICY = refuse` (44_cpu_special.md R132). Safe. -/
  | undefinedCpuRegister
  /-- COGET with dst = 0, under `COGET_DST0 = refuse` (43_coprocessor.md R110). Safe. -/
  | cogetDst0
  /-- An odd program counter (10_state.md R13, 20_memory.md R45): raised by `step`. Safe. -/
  | oddPc
deriving DecidableEq, Repr

/-- What a step or a meaning answers. -/
abbrev Result := Host.Outcome State Fault Refusal

/-- The PSW at reset: LEVEL is `RESET_LEVEL`, the rest has no reset value (10_state.md R32; log 1). -/
def Psw.atReset (p : Params) : Psw :=
  { n := false, z := false, v := false, c := false
    bcdc := 0, oldLevel := 0, level := p.resetLevel }

/-- The machine after reset under given parameters (10_state.md R32, 70_reset_and_hazards.md
R170): the pc and the level by the parameters, every other register the value log 1 names,
memory with nothing listed. -/
def State.resetWith (p : Params) : State :=
  { cfg := p
    gpr := Vector.replicate 15 unspecifiedAtReset
    pc := p.resetPc
    psw := Psw.atReset p
    tpc := unspecifiedAtReset
    tma := unspecifiedAtReset
    tsv := unspecifiedAtReset
    cyc := unspecifiedAtReset
    mmu := Vector.replicate 4 unspecifiedAtReset
    extra := Vector.replicate 7 unspecifiedAtReset
    costat := unspecifiedAtReset
    co := Vector.replicate 7 { code := 0, left := Vector.replicate 16 0 }
    mem := []
    draws := 0 }

/-- The machine after reset. -/
def State.reset : State := State.resetWith defaultParams

end Sys2Proof.Machine
end

