-- ==== Sys2Proof/Machine/Operands.lean ====
section
/-! DEFINITION. The operand forms: general registers, and what a designator 0 means by the mark
of its field (10_state.md R12, 30_encoding.md R57, 00_scope.md R7). -/

namespace Sys2Proof.Machine

open Config

/-- The bytes an offset parameter adds to the address of the instruction (00_scope.md R5). -/
def pcOffsetBytes : PcOffset → Word
  | .thisInstruction => 0#32
  | .nextInstruction => 2#32

/-- `x[i]`, the read of a general register (10_state.md R11). Designator 0 names no cell (R12);
where a field of mark (0) holds it the operand is the constant 0. -/
def State.reg (s : State) (i : RegNum) : Word :=
  if i = 0#4 then 0#32 else s.gpr[i.toNat - 1]'(by have := i.isLt; omega)

/-- `x[i] <- v`, the write of a general register. Designator 0 names no cell and the value is
discarded (10_state.md R12). -/
def State.setReg (s : State) (i : RegNum) (v : Word) : State :=
  { s with
    gpr := if i = 0#4 then s.gpr else s.gpr.set (i.toNat - 1) v (by have := i.isLt; omega) }

/-- `gpr_or_zero(f)`, a field of mark (0) (00_scope.md R7). -/
def gprOrZero (s : State) (f : RegNum) : Word :=
  if f = 0#4 then 0#32 else s.reg f

/-- The program counter as an operand: `(A + PC_OPERAND_OFFSET) mod 2^32` (10_state.md R13). -/
def pcOperand (s : State) : Word := s.pc + pcOffsetBytes s.cfg.pcOperandOffset

/-- `gpr_or_pc(f)`, a field of mark (pc) that is read (00_scope.md R7). -/
def gprOrPc (s : State) (f : RegNum) : Word :=
  if f = 0#4 then pcOperand s else s.reg f

/-- `pc <- (A + 2) mod 2^32` (10_state.md R14). -/
def State.advance (s : State) : State := { s with pc := s.pc + 2#32 }

end Sys2Proof.Machine
end

