-- ==== Sys2Proof/Machine/Flags.lean ====
section
/-! DEFINITION. The PSW: its fields in the 32-bit word, the writes of its fields, the flags COGET
writes, and the adjustments ADJUST computes from it. -/

namespace Sys2Proof.Machine

open Config

/-- LEVEL 0b1111, the unprivileged state (10_state.md R18). -/
def unprivilegedLevel : Level := 0xF#4

/-- The bits of `v` at the positions `pos`, position i giving bit i. -/
def gatherBits {n : Nat} (pos : Vector (Fin 32) n) (v : Word) : BitVec n :=
  BitVec.ofFnLE (fun i => v.getLsbD pos[i.val].val)

/-- Each named bit of the PSW with its position in the word (00_scope.md R5, `PSW_LAYOUT`). -/
def pswBits (l : PswLayout) (p : Psw) : List (Fin 32 × Bool) :=
  [(l.n, p.n), (l.z, p.z), (l.v, p.v), (l.c, p.c)]
    ++ List.ofFn (fun i : Fin 8 => (l.bcdc[i.val], p.bcdc.getLsbD i.val))
    ++ List.ofFn (fun i : Fin 4 => (l.oldLevel[i.val], p.oldLevel.getLsbD i.val))
    ++ List.ofFn (fun i : Fin 4 => (l.level[i.val], p.level.getLsbD i.val))

/-- The word that has the given bits at the given positions and zero elsewhere. -/
def placeBits : List (Fin 32 × Bool) → Word
  | [] => 0#32
  | (pos, b) :: rest => (if b then 1#32 <<< pos.val else 0#32) ||| placeBits rest

/-- The PSW as CPUGET reads it: the named fields at the positions of `PSW_LAYOUT`, zero
elsewhere (44_cpu_special.md R129). -/
def pswWord (l : PswLayout) (p : Psw) : Word := placeBits (pswBits l p)

/-- The fields of a word written to the PSW, each at its position (44_cpu_special.md R131). -/
def pswOfWord (l : PswLayout) (w : Word) : Psw :=
  { n := w.getLsbD l.n.val
    z := w.getLsbD l.z.val
    v := w.getLsbD l.v.val
    c := w.getLsbD l.c.val
    bcdc := gatherBits l.bcdc w
    oldLevel := gatherBits l.oldLevel w
    level := gatherBits l.level w }

/-- Write N, Z, V and C, and nothing else of the PSW (43_coprocessor.md R110, R111; log 33). -/
def State.setNzvc (s : State) (f : Nzvc) : State :=
  { s with psw := { s.psw with n := f.n, z := f.z, v := f.v, c := f.c } }

/-- `PSW.LEVEL <- PSW.OLDLEVEL` (44_cpu_special.md R127; log 30). -/
def State.restoreLevel (s : State) : State :=
  { s with psw := { s.psw with level := s.psw.oldLevel } }

/-- The condition codes of a COGET from COSTAT: Z from the value, the others reset
(43_coprocessor.md R110). -/
def costatFlags (v : Word) : Nzvc := { n := false, z := v == 0#32, v := false, c := false }

/-- The word E of 41_adjust.md R77: 0xF in nibble i where BCDC[i] is 1. -/
def carryNibbles (bcdc : BitVec 8) : Word :=
  [0, 1, 2, 3, 4, 5, 6, 7].foldl
    (fun e i => e + (if bcdc.getLsbD i then 0xF#32 <<< (4 * i) else 0#32)) 0#32

/-- The BCD adjustment (41_adjust.md R78). -/
def adjBcd (p : Psw) : Word := 0#32 - (0x66666666#32 &&& ~~~carryNibbles p.bcdc)

/-- The excess-3 adjustment (41_adjust.md R79). -/
def adjEx3 (p : Psw) : Word :=
  (0x33333333#32 &&& carryNibbles p.bcdc) - (0x33333333#32 &&& ~~~carryNibbles p.bcdc)

/-- The CMSB adjustment: `PSW.C << 31` (41_adjust.md R80). -/
def adjCmsb (p : Psw) : Word := (BitVec.ofBool p.c).setWidth 32 <<< 31

/-- The SSQ adjustment: `PSW.N & PSW.V` (41_adjust.md R81). -/
def adjSsq (p : Psw) : Word := (BitVec.ofBool (p.n && p.v)).setWidth 32

/-- The adjustment of the selector `8 + k`: the constant `2^k` (30_encoding.md R59). -/
def adjPlus (k : Nat) : Word := 1#32 <<< k

end Sys2Proof.Machine
end

