-- ==== Sys2Proof/Syntax.lean ====
section
/-! DEFINITION. The instructions: one constructor per row of spec/opcode_table.json, in the
table's order. A field keeps the 4 bits of its designator where the value 0 has the meaning
of a mark (30_encoding.md R57). -/

namespace Sys2Proof

/-- The special CPU registers the source defines (10_state.md R21). -/
inductive CpuReg where
  | psw
  | tpc
  | tma
  | tsv
  | cyc
deriving DecidableEq, Repr

/-- Which of the two instructions names an undefined special register (44_cpu_special.md R132). -/
inductive CpuAccess where
  | set
  | get
deriving DecidableEq, Repr

/-- The instructions (30_encoding.md R56, R58). -/
inductive Instr where
  /-- CPUSET srcx,src of a defined special register (R130). -/
  | cpuset (srcx : RegNum) (src : CpuReg)
  /-- CPUGET dst,src with dst = 1..15 (R126). -/
  | cpuget (dst : RegNum) (src : CpuReg)
  /-- CPUGET R0,src, the program-counter form (R127). -/
  | cpugetPc (src : CpuReg)
  /-- RTT, the word of CPUGET R0,TPC (R128). -/
  | rtt
  /-- COSET srcx,src (R113). -/
  | coset (srcx : RegNum) (src : RegNum)
  /-- COGET dst,COSTAT (R110). -/
  | cogetCostat (dst : RegNum)
  /-- COGET dst,src with src = 1..15 (R111). -/
  | coget (dst : RegNum) (src : RegNum)
  /-- PLUS dst,src (R100). -/
  | plus (dst : RegNum) (src : RegNum)
  /-- ADJUST dst,BCD (R78). -/
  | adjustBcd (dst : RegNum)
  /-- ADJUST dst,EX3 (R79). -/
  | adjustEx3 (dst : RegNum)
  /-- ADJUST dst,CMSB (R80). -/
  | adjustCmsb (dst : RegNum)
  /-- ADJUST dst,SSQ (R81). -/
  | adjustSsq (dst : RegNum)
  /-- ADJUST dst,PLUS1 (R82). -/
  | adjustPlus1 (dst : RegNum)
  /-- ADJUST dst,PLUS2 (R83). -/
  | adjustPlus2 (dst : RegNum)
  /-- ADJUST dst,PLUS4 (R84). -/
  | adjustPlus4 (dst : RegNum)
  /-- ADJUST dst,PLUS8 (R85). -/
  | adjustPlus8 (dst : RegNum)
  /-- ADJUST dst,PLUS16 (R86). -/
  | adjustPlus16 (dst : RegNum)
  /-- ADJUST dst,PLUS32 (R87). -/
  | adjustPlus32 (dst : RegNum)
  /-- ADJUST dst,PLUS64 (R88). -/
  | adjustPlus64 (dst : RegNum)
  /-- ADJUST dst,PLUS128 (R89). -/
  | adjustPlus128 (dst : RegNum)
  /-- Reserved: ADJUST with selector 0000 (R90). -/
  | reservedAdjustSel0 (dst : RegNum)
  /-- Reserved: ADJUST with selector 0001 (R90). -/
  | reservedAdjustSel1 (dst : RegNum)
  /-- Reserved: ADJUST with selector 0110 (R90). -/
  | reservedAdjustSel6 (dst : RegNum)
  /-- Reserved: ADJUST with selector 0111 (R90). -/
  | reservedAdjustSel7 (dst : RegNum)
  /-- Reserved: ADJUST with dst = 0, whatever its selector (R90). -/
  | reservedAdjustDst0 (src : RegNum)
  /-- Reserved: PLUS with dst = 0 (R102). -/
  | reservedPlusDst0 (src : RegNum)
  /-- CPUGET or CPUSET of a special register the source does not define (R132). -/
  | cpuUndefined (access : CpuAccess) (dst : RegNum) (src : Config.ExtraReg)
  /-- fn 0110, not defined in the source (R63). -/
  | undefinedFn6 (dst : RegNum) (src : RegNum)
  /-- fn 0111, not defined in the source (R63). -/
  | undefinedFn7 (dst : RegNum) (src : RegNum)
deriving DecidableEq, Repr

end Sys2Proof
end

