-- ==== Sys2Proof/Machine/Ops.lean ====
section
/-! DEFINITION. The named operations: main memory, taking a trap and returning from one, the
privilege check, the reserved policy, the special CPU registers, and the coprocessors. -/

namespace Sys2Proof.Machine

open Config

/-! ### Main memory -/

/-- The byte at an address, none where the launch memory does not admit it (20_memory.md R43). -/
def Memory.readByte : Memory → Nat → Option Byte
  | [], _ => none
  | (a, b) :: m, x => if x = a then some b else Memory.readByte m x

/-- The write of one byte, keeping addresses strictly rising. The address becomes admitted. -/
def Memory.writeByte : Memory → Nat → Byte → Memory
  | [], x, v => [(x, v)]
  | (a, b) :: m, x, v =>
    if x < a then (x, v) :: (a, b) :: m
    else if x = a then (x, v) :: m
    else (a, b) :: Memory.writeByte m x v

/-- Addresses strictly rise from `lo` on and stay below 2^32. -/
def Memory.risingFrom : Nat → Memory → Bool
  | _, [] => true
  | lo, (a, _) :: m => decide (lo ≤ a) && decide (a < 2 ^ 32) && Memory.risingFrom (a + 1) m

/-- The canonical form of memory: addresses strictly rise and are 32-bit (20_memory.md R41). An
unlisted address reads as no byte, so no entry can equal what an unlisted address reads as. -/
def Memory.wf (m : Memory) : Bool := Memory.risingFrom 0 m

/-- `MemRead(addr, n)`: the n-byte little-endian value (00_scope.md R7, 20_memory.md R42), none
where a byte is not admitted. Addresses wrap modulo 2^32. -/
def Memory.read (m : Memory) : (addr : Word) → (n : Nat) → Option Nat
  | _, 0 => some 0
  | addr, n + 1 =>
    match Memory.readByte m addr.toNat, Memory.read m (addr + 1#32) n with
    | some b, some rest => some (b.toNat + 256 * rest)
    | _, _ => none

/-- `MemWrite(addr, n, v)`: the n-byte little-endian store (00_scope.md R7). No special
instruction uses it; the launch does. -/
def Memory.write (m : Memory) : (addr : Word) → (n : Nat) → (v : Nat) → Memory
  | _, 0, _ => m
  | addr, n + 1, v =>
    Memory.write (Memory.writeByte m addr.toNat (BitVec.ofNat 8 v)) (addr + 1#32) n (v / 256)

/-! ### Traps and privilege -/

/-- `TRAP_VECTOR(cause)` (60_exceptions.md R146). -/
def trapVector (v : TrapVectors) : Trap → Word
  | .memoryAddressing _ => v.memoryAddressing
  | .unimplementedInstruction => v.unimplementedInstruction
  | .privilegeViolation => v.privilegeViolation
  | .coprocessorTrap => v.coprocessorTrap

/-- What a trap writes into TMA: the faulting address after a trap caused by memory addressing,
a draw otherwise (60_exceptions.md R150, 10_state.md R23; log 14). -/
def trapTma (draws : Nat) : Trap → Word
  | .memoryAddressing va => va
  | _ => Config.tmaDraw draws

/-- `raise T(info)` at the instruction whose address is the pc: trap entry, one atomic step
instead of everything else the instruction would have done (60_exceptions.md R150; log 29). -/
def takeTrap (s : State) (t : Trap) : State :=
  { s with
    tpc := s.pc + pcOffsetBytes s.cfg.tpcOffset
    tma := trapTma s.draws t
    psw := { s.psw with oldLevel := s.psw.level, level := s.cfg.trapLevel }
    pc := trapVector s.cfg.trapVector t
    draws := s.draws + 1 }

/-- The return of CPUGET R0,src and RTT: the level from the old level, the pc from the value
read before (44_cpu_special.md R127, R128; 60_exceptions.md R152). -/
def returnTo (s : State) (target : Word) : State := { s.restoreLevel with pc := target }

/-- The privilege check of CPUGET and CPUSET, the first thing after decode
(44_cpu_special.md R125). -/
def privileged (s : State) (body : Result) : Result :=
  if s.psw.level = unprivilegedLevel then .next (takeTrap s .privilegeViolation) else body

/-- A reserved word: `RESERVED_POLICY` decides (30_encoding.md R62, 41_adjust.md R90). -/
def reserved (why : Refusal) (s : State) : Result :=
  match s.cfg.reservedPolicy with
  | .refuse => .refused why
  | .trap => .next (takeTrap s .unimplementedInstruction)

/-! ### Special CPU registers -/

/-- `cpu_read(n)` of a defined register (44_cpu_special.md R129). A read of CYC is a draw. -/
def cpuRead (s : State) : CpuReg → Word
  | .psw => pswWord s.cfg.pswLayout s.psw
  | .tpc => s.tpc
  | .tma => s.tma
  | .tsv => s.tsv
  | .cyc => Config.cycRead s.cyc s.draws

/-- The count of draws after `cpu_read(n)`: a read of CYC has drawn one. -/
def drawsAfterRead (s : State) : CpuReg → Nat
  | .cyc => s.draws + 1
  | _ => s.draws

/-- `cpu_write(n, v)` of a defined register (44_cpu_special.md R131). -/
def cpuWrite (s : State) (r : CpuReg) (v : Word) : State :=
  match r with
  | .psw => { s with psw := pswOfWord s.cfg.pswLayout (v &&& s.cfg.pswImplMask) }
  | .tpc => { s with tpc := v }
  | .tma => { s with tma := v }
  | .tsv => { s with tsv := v }
  | .cyc => { s with cyc := Config.cycWrite s.cyc v s.draws, draws := s.draws + 1 }

/-- What an undefined special register holds, should the CPU implement it (10_state.md R26, R27). -/
def State.extraCell (s : State) : ExtraReg → Word
  | .mmu i => s.mmu[i.val]
  | .other i => s.extra[i.val]

/-- Write what an undefined special register holds. -/
def State.setExtraCell (s : State) (r : ExtraReg) (v : Word) : State :=
  { s with
    mmu := match r with
      | .mmu i => s.mmu.set i.val v
      | .other _ => s.mmu
    extra := match r with
      | .mmu _ => s.extra
      | .other i => s.extra.set i.val v }

/-- The value CPUGET reads from a register that `EXTRA_CPU_REGS` supplies (44_cpu_special.md R132). -/
def extraCpuRead (s : State) (r : ExtraReg) : Word :=
  Config.extraRead r (s.extraCell r) s.draws

/-- The write of a register that `EXTRA_CPU_REGS` supplies (44_cpu_special.md R132). -/
def extraCpuWrite (s : State) (r : ExtraReg) (v : Word) : State :=
  s.setExtraCell r (Config.extraWrite r (s.extraCell r) v)

/-- CPUGET's transfer of a value that was read, with the count of draws after the read: to the
pc with the level restored where dst = 0, else to a general register (R126, R127). -/
def deliverCpuValue (s : State) (dst : RegNum) (v : Word) (drawsAfter : Nat) : State :=
  if dst = 0#4 then { returnTo s v with draws := drawsAfter }
  else { (s.setReg dst v).advance with draws := drawsAfter }

/-! ### Coprocessors -/

/-- Whether the value `v` of COSTAT meets a test of `COSTAT_LAYOUT`. -/
def meetsTest (v : Word) (t : BitTest) : Bool := v &&& t.mask == t.value

/-- `enabled(v, k)` of `COSTAT_LAYOUT` (43_coprocessor.md R106). -/
def coEnabled (l : CostatLayout) (v : Word) (k : CoId) : Bool := l.enable[k.val].any (meetsTest v)

/-- `selected(v)` of `COSTAT_LAYOUT`: one coprocessor, or none (43_coprocessor.md R106). -/
def coSelected (l : CostatLayout) (v : Word) : Option CoId :=
  (l.select.find? (fun row => meetsTest v row.1)).map Prod.snd

/-- The value of COSTAT: unimplemented bits read as zero (10_state.md R28). -/
def costatValue (s : State) : Word := s.costat &&& s.cfg.costatLayout.implMask

/-- The access check `co_ok(COSTAT)`: the coprocessor a COGET or COSET with src ≠ 0 reaches, none
where it is absent, disabled, or none is selected (43_coprocessor.md R108; log 32). -/
def coOk (s : State) : Option CoId :=
  match coSelected s.cfg.costatLayout (costatValue s) with
  | none => none
  | some k =>
    if s.cfg.present[k.val] && coEnabled s.cfg.costatLayout (costatValue s) k then some k else none

/-- `CoReady(CS[k], src)` (43_coprocessor.md R107): no step is left until the coprocessor is ready
for that register (log 9). -/
def coReady (c : CoState) (src : RegNum) : Bool := c.left[src.toNat]'src.isLt == 0

/-- `CoStep` of `COPROC(k)` (43_coprocessor.md R107). Each step of its own brings the coprocessor one
step nearer to being ready for each register it is not ready for: the law of R107 (log 11). All
else that the step does is left open. -/
def coStep (k : CoId) (c : CoState) : CoState :=
  { code := (Config.coStepOpen k c).code
    left := Vector.ofFn (fun n : Fin 16 =>
      if c.left[n.val] = 0 then (Config.coStepOpen k c).left[n.val] else c.left[n.val] - 1) }

/-- The coprocessor steps of its own, `n` of them (43_coprocessor.md R107). -/
def coSteps (k : CoId) : Nat → CoState → CoState
  | 0, c => c
  | n + 1, c => coSteps k n (coStep k c)

/-- The hold of a COGET: the coprocessor as it is when it has become ready for the register, by
steps of its own and nothing else (43_coprocessor.md R112; log 10). -/
def coWait (k : CoId) (src : RegNum) (c : CoState) : CoState :=
  coSteps k (c.left[src.toNat]'src.isLt) c

/-- The coprocessors after a write of COSTAT: the state of every present one that the new value
leaves disabled is unspecified (43_coprocessor.md R114; log 15). -/
def coAfterCostat (s : State) (newCostat : Word) : Vector CoState 7 :=
  Vector.ofFn (fun k : CoId =>
    if s.cfg.present[k.val] && !coEnabled s.cfg.costatLayout newCostat k then Config.coLost s.draws k
    else s.co[k.val])

/-- The write of COSTAT: the implemented bits (43_coprocessor.md R113), and the loss of R114. -/
def setCostat (s : State) (v : Word) : State :=
  { s with
    costat := v &&& s.cfg.costatLayout.implMask
    co := coAfterCostat s (v &&& s.cfg.costatLayout.implMask)
    draws := s.draws + 1 }

/-- Replace the state of coprocessor k. -/
def State.setCo (s : State) (k : CoId) (c : CoState) : State := { s with co := s.co.set k.val c }

/-- COGET and COSET are unimplemented instructions on a Sparrowhawk (43_coprocessor.md R109). -/
def withCoprocessors (s : State) (body : Result) : Result :=
  if s.cfg.hasCoprocessors then body else .next (takeTrap s .unimplementedInstruction)

/-- `COGET_DST0` for a COGET with dst = 0 (43_coprocessor.md R110; log 18). -/
def cogetAllowed (s : State) (dst : RegNum) (body : Result) : Result :=
  if dst = 0#4 ∧ s.cfg.cogetDst0 = .refuse then .refused .cogetDst0 else body

/-- The transfer of a COGET from COSTAT (43_coprocessor.md R110). -/
def cogetCostatState (s : State) (dst : RegNum) : State :=
  ((s.setReg dst (costatValue s)).setNzvc (costatFlags (costatValue s))).advance

/-- The transfer of a COGET from a register of coprocessor k (43_coprocessor.md R111): the hold
until it is ready, and then the read. -/
def cogetState (s : State) (k : CoId) (dst src : RegNum) : State :=
  let r := Config.coRead k (coWait k src s.co[k.val]) src
  (((s.setCo k r.next).setReg dst r.value).setNzvc r.flags).advance

/-- Every present coprocessor takes a free number of steps of its own (10_state.md R30; log 10). -/
def runCoprocessors (s : State) : State :=
  { s with
    co := Vector.ofFn (fun k : CoId =>
      if s.cfg.hasCoprocessors && s.cfg.present[k.val] then
        coSteps k (Config.coSchedule s.draws k) s.co[k.val]
      else s.co[k.val])
    draws := s.draws + 1 }

end Sys2Proof.Machine
end

