-- ==== Sys2Proof/Machine/Adjust.lean ====
section
/-! DEFINITION. ADJUST: the meaning shared by its twelve adjustments, one definition for each,
and its reserved forms (41_adjust.md). -/

namespace Sys2Proof.Machine

/-- ADJUST dst with the adjustment `a` (41_adjust.md R76): one addition modulo 2^32, nothing of
the PSW written. dst = 0 is reserved (R90). -/
def adjust (a : Word) (dst : RegNum) (s : State) : Result :=
  if dst = 0#4 then reserved .reservedAdjustDst0 s
  else .next (s.setReg dst (s.reg dst + a)).advance

/-- ADJUST dst,BCD (41_adjust.md R78). -/
def execAdjustBcd (dst : RegNum) (s : State) : Result := adjust (adjBcd s.psw) dst s

/-- ADJUST dst,EX3 (41_adjust.md R79). -/
def execAdjustEx3 (dst : RegNum) (s : State) : Result := adjust (adjEx3 s.psw) dst s

/-- ADJUST dst,CMSB (41_adjust.md R80). -/
def execAdjustCmsb (dst : RegNum) (s : State) : Result := adjust (adjCmsb s.psw) dst s

/-- ADJUST dst,SSQ (41_adjust.md R81). -/
def execAdjustSsq (dst : RegNum) (s : State) : Result := adjust (adjSsq s.psw) dst s

/-- ADJUST dst,PLUS1 (41_adjust.md R82). -/
def execAdjustPlus1 (dst : RegNum) (s : State) : Result := adjust (adjPlus 0) dst s

/-- ADJUST dst,PLUS2 (41_adjust.md R83). -/
def execAdjustPlus2 (dst : RegNum) (s : State) : Result := adjust (adjPlus 1) dst s

/-- ADJUST dst,PLUS4 (41_adjust.md R84). -/
def execAdjustPlus4 (dst : RegNum) (s : State) : Result := adjust (adjPlus 2) dst s

/-- ADJUST dst,PLUS8 (41_adjust.md R85). -/
def execAdjustPlus8 (dst : RegNum) (s : State) : Result := adjust (adjPlus 3) dst s

/-- ADJUST dst,PLUS16 (41_adjust.md R86). -/
def execAdjustPlus16 (dst : RegNum) (s : State) : Result := adjust (adjPlus 4) dst s

/-- ADJUST dst,PLUS32 (41_adjust.md R87). -/
def execAdjustPlus32 (dst : RegNum) (s : State) : Result := adjust (adjPlus 5) dst s

/-- ADJUST dst,PLUS64 (41_adjust.md R88). -/
def execAdjustPlus64 (dst : RegNum) (s : State) : Result := adjust (adjPlus 6) dst s

/-- ADJUST dst,PLUS128 (41_adjust.md R89). -/
def execAdjustPlus128 (dst : RegNum) (s : State) : Result := adjust (adjPlus 7) dst s

/-- ADJUST with selector 0000 (41_adjust.md R90). -/
def execReservedAdjustSel0 (_dst : RegNum) (s : State) : Result := reserved .reservedAdjustSelector s

/-- ADJUST with selector 0001 (41_adjust.md R90). -/
def execReservedAdjustSel1 (_dst : RegNum) (s : State) : Result := reserved .reservedAdjustSelector s

/-- ADJUST with selector 0110 (41_adjust.md R90). -/
def execReservedAdjustSel6 (_dst : RegNum) (s : State) : Result := reserved .reservedAdjustSelector s

/-- ADJUST with selector 0111 (41_adjust.md R90). -/
def execReservedAdjustSel7 (_dst : RegNum) (s : State) : Result := reserved .reservedAdjustSelector s

/-- ADJUST with dst = 0 (41_adjust.md R90). -/
def execReservedAdjustDst0 (_src : RegNum) (s : State) : Result := reserved .reservedAdjustDst0 s

end Sys2Proof.Machine
end

