-- ==== Sys2Proof/Machine/Coprocessor.lean ====
section
/-! DEFINITION. COSET and COGET (43_coprocessor.md). Neither is privileged (R117). -/

namespace Sys2Proof.Machine

open Config

/-- COSET to a register of the selected coprocessor, which never waits
(43_coprocessor.md R113, R112; log 44). -/
def cosetRegister (v : Word) (src : RegNum) (s : State) : Result :=
  match coOk s with
  | none => .next (takeTrap s .coprocessorTrap)
  | some k => .next (s.setCo k (Config.coWrite k s.co[k.val] src v)).advance

/-- COSET srcx,src (43_coprocessor.md R113). -/
def execCoset (srcx src : RegNum) (s : State) : Result :=
  withCoprocessors s <|
    if src = 0#4 then .next (setCostat s (gprOrZero s srcx)).advance
    else cosetRegister (gprOrZero s srcx) src s

/-- COGET from COSTAT (43_coprocessor.md R110). -/
def cogetFromCostat (dst : RegNum) (s : State) : Result :=
  withCoprocessors s <| cogetAllowed s dst <| .next (cogetCostatState s dst)

/-- The access of a COGET to the selected coprocessor (43_coprocessor.md R108, R111), which holds
the CPU while the coprocessor is not ready (R112). -/
def cogetSelected (dst src : RegNum) (s : State) : Result :=
  match coOk s with
  | none => .next (takeTrap s .coprocessorTrap)
  | some k => .next (cogetState s k dst src)

/-- COGET from a register of the selected coprocessor (43_coprocessor.md R111). -/
def cogetFromRegister (dst src : RegNum) (s : State) : Result :=
  withCoprocessors s <| cogetAllowed s dst <| cogetSelected dst src s

/-- COGET dst,COSTAT (43_coprocessor.md R110). -/
def execCogetCostat (dst : RegNum) (s : State) : Result := cogetFromCostat dst s

/-- COGET dst,src (43_coprocessor.md R111); src = 0 would be COSTAT (R60). -/
def execCoget (dst src : RegNum) (s : State) : Result :=
  if src = 0#4 then cogetFromCostat dst s else cogetFromRegister dst src s

end Sys2Proof.Machine
end

