-- ==== Sys2Proof/Machine/CpuSpecial.lean ====
section
/-! DEFINITION. CPUSET, CPUGET and RTT, the privileged instructions (44_cpu_special.md). -/

namespace Sys2Proof.Machine

open Config

/-- CPUGET of a defined register to a general register, or to the pc where dst = 0
(44_cpu_special.md R126, R127). -/
def cpuGet (dst : RegNum) (src : CpuReg) (s : State) : Result :=
  privileged s <| .next (deliverCpuValue s dst (cpuRead s src) (drawsAfterRead s src))

/-- CPUSET srcx,src (44_cpu_special.md R130). -/
def execCpuset (srcx : RegNum) (src : CpuReg) (s : State) : Result :=
  privileged s <| .next (cpuWrite s src (gprOrZero s srcx)).advance

/-- CPUGET dst,src (44_cpu_special.md R126). -/
def execCpuget (dst : RegNum) (src : CpuReg) (s : State) : Result := cpuGet dst src s

/-- CPUGET R0,src, the program-counter form (44_cpu_special.md R127). -/
def execCpugetPc (src : CpuReg) (s : State) : Result := cpuGet 0#4 src s

/-- RTT, the return from trap: CPUGET R0,TPC (44_cpu_special.md R128). -/
def execRtt (s : State) : Result := privileged s <| .next (returnTo s s.tpc)

/-- The transfer of a CPUGET or CPUSET of a register that `EXTRA_CPU_REGS` supplies
(44_cpu_special.md R132). A read draws. -/
def extraCpuAccess (access : CpuAccess) (dst : RegNum) (src : ExtraReg) (s : State) : State :=
  match access with
  | .set => (extraCpuWrite s src (gprOrZero s dst)).advance
  | .get => deliverCpuValue s dst (extraCpuRead s src) (s.draws + 1)

/-- CPUGET or CPUSET of a special register the source does not define (44_cpu_special.md R132):
the privilege check first, then the register if the CPU implements it, else the policy. -/
def execCpuUndefined (access : CpuAccess) (dst : RegNum) (src : ExtraReg) (s : State) : Result :=
  privileged s <|
    if src ∈ s.cfg.extraCpuRegs then .next (extraCpuAccess access dst src s)
    else reserved .undefinedCpuRegister s

end Sys2Proof.Machine
end

