-- ==== Sys2Proof/Machine/Plus.lean ====
section
/-! DEFINITION. PLUS and its reserved form (42_plus.md), and the two function codes the source
does not define (30_encoding.md R63). -/

namespace Sys2Proof.Machine

/-- PLUS dst,src (42_plus.md R100): both operands are read before the write; src = 0 names the
program counter; dst = 0 is reserved (R102). -/
def execPlus (dst src : RegNum) (s : State) : Result :=
  if dst = 0#4 then reserved .reservedPlusDst0 s
  else .next (s.setReg dst (s.reg dst + gprOrPc s src)).advance

/-- PLUS with dst = 0 (42_plus.md R102). -/
def execReservedPlusDst0 (_src : RegNum) (s : State) : Result := reserved .reservedPlusDst0 s

/-- fn 0110: not defined in the source, refused and not trapped (30_encoding.md R63). -/
def execUndefinedFn6 (_dst _src : RegNum) (_s : State) : Result := .refused .undefinedFunctionCode

/-- fn 0111: not defined in the source, refused and not trapped (30_encoding.md R63). -/
def execUndefinedFn7 (_dst _src : RegNum) (_s : State) : Result := .refused .undefinedFunctionCode

end Sys2Proof.Machine
end

