-- ==== Sys2Proof/Machine/Dispatch.lean ====
section
/-! DEFINITION. What each instruction does: one arm per constructor. -/

namespace Sys2Proof.Machine

def exec (i : Instr) (s : State) : Host.Outcome State Fault Refusal :=
  match i with
  | .cpuset srcx src => Sys2Proof.Machine.execCpuset srcx src s
  | .cpuget dst src => Sys2Proof.Machine.execCpuget dst src s
  | .cpugetPc src => Sys2Proof.Machine.execCpugetPc src s
  | .rtt => Sys2Proof.Machine.execRtt s
  | .coset srcx src => Sys2Proof.Machine.execCoset srcx src s
  | .cogetCostat dst => Sys2Proof.Machine.execCogetCostat dst s
  | .coget dst src => Sys2Proof.Machine.execCoget dst src s
  | .plus dst src => Sys2Proof.Machine.execPlus dst src s
  | .adjustBcd dst => Sys2Proof.Machine.execAdjustBcd dst s
  | .adjustEx3 dst => Sys2Proof.Machine.execAdjustEx3 dst s
  | .adjustCmsb dst => Sys2Proof.Machine.execAdjustCmsb dst s
  | .adjustSsq dst => Sys2Proof.Machine.execAdjustSsq dst s
  | .adjustPlus1 dst => Sys2Proof.Machine.execAdjustPlus1 dst s
  | .adjustPlus2 dst => Sys2Proof.Machine.execAdjustPlus2 dst s
  | .adjustPlus4 dst => Sys2Proof.Machine.execAdjustPlus4 dst s
  | .adjustPlus8 dst => Sys2Proof.Machine.execAdjustPlus8 dst s
  | .adjustPlus16 dst => Sys2Proof.Machine.execAdjustPlus16 dst s
  | .adjustPlus32 dst => Sys2Proof.Machine.execAdjustPlus32 dst s
  | .adjustPlus64 dst => Sys2Proof.Machine.execAdjustPlus64 dst s
  | .adjustPlus128 dst => Sys2Proof.Machine.execAdjustPlus128 dst s
  | .reservedAdjustSel0 dst => Sys2Proof.Machine.execReservedAdjustSel0 dst s
  | .reservedAdjustSel1 dst => Sys2Proof.Machine.execReservedAdjustSel1 dst s
  | .reservedAdjustSel6 dst => Sys2Proof.Machine.execReservedAdjustSel6 dst s
  | .reservedAdjustSel7 dst => Sys2Proof.Machine.execReservedAdjustSel7 dst s
  | .reservedAdjustDst0 src => Sys2Proof.Machine.execReservedAdjustDst0 src s
  | .reservedPlusDst0 src => Sys2Proof.Machine.execReservedPlusDst0 src s
  | .cpuUndefined access dst src => Sys2Proof.Machine.execCpuUndefined access dst src s
  | .undefinedFn6 dst src => Sys2Proof.Machine.execUndefinedFn6 dst src s
  | .undefinedFn7 dst src => Sys2Proof.Machine.execUndefinedFn7 dst src s

end Sys2Proof.Machine
end

