-- ==== Sys2Proof/WellFormed.lean ====
section
/-! DEFINITION. Which terms of `Instr` stand for a word of their row: the conditions of
30_encoding.md R58 and R62. -/

namespace Sys2Proof

/-- The conditions the opcode table puts on the fields of each row. -/
def Instr.wellFormed : Instr → Bool
  | .cpuset _ _ => true
  | .cpuget dst _ => dst != 0#4
  | .cpugetPc src => src != .tpc
  | .rtt => true
  | .coset _ _ => true
  | .cogetCostat _ => true
  | .coget _ src => src != 0#4
  | .plus dst _ => dst != 0#4
  | .adjustBcd dst => dst != 0#4
  | .adjustEx3 dst => dst != 0#4
  | .adjustCmsb dst => dst != 0#4
  | .adjustSsq dst => dst != 0#4
  | .adjustPlus1 dst => dst != 0#4
  | .adjustPlus2 dst => dst != 0#4
  | .adjustPlus4 dst => dst != 0#4
  | .adjustPlus8 dst => dst != 0#4
  | .adjustPlus16 dst => dst != 0#4
  | .adjustPlus32 dst => dst != 0#4
  | .adjustPlus64 dst => dst != 0#4
  | .adjustPlus128 dst => dst != 0#4
  | .reservedAdjustSel0 dst => dst != 0#4
  | .reservedAdjustSel1 dst => dst != 0#4
  | .reservedAdjustSel6 dst => dst != 0#4
  | .reservedAdjustSel7 dst => dst != 0#4
  | .reservedAdjustDst0 _ => true
  | .reservedPlusDst0 _ => true
  | .cpuUndefined _ _ _ => true
  | .undefinedFn6 _ _ => true
  | .undefinedFn7 _ _ => true

end Sys2Proof
end

