-- ==== Sys2Proof/Decode.lean ====
section
/-! DEFINITION. Decoding, total on any bytes and rejecting by name (30_encoding.md R55, R58,
R62, R63), and the encoder (R70) after it. -/

namespace Sys2Proof

/-- Why bytes are no special instruction. -/
inductive DecodeError where
  /-- fewer than the 2 bytes of an instruction are left (R55) -/
  | tooShort
  /-- I[7:4] is not 0001: not a special instruction (R63 b) -/
  | opNotSpecial (word : Half)
  /-- I[15] is 1: not a special instruction (R63 b) -/
  | highBitSet (word : Half)
deriving DecidableEq, Repr

/-- I[3:0] (R55). -/
def dstField (w : Half) : RegNum := w.extractLsb' 0 4

/-- I[7:4] (R55). -/
def opField (w : Half) : BitVec 4 := w.extractLsb' 4 4

/-- I[11:8] (R55). -/
def srcField (w : Half) : RegNum := w.extractLsb' 8 4

/-- I[15:12] (R55). -/
def fnField (w : Half) : BitVec 4 := w.extractLsb' 12 4

/-- CPUSET by its register number: the table of 10_state.md R21; an undefined number is the
reserved row (R62; DEDUCED, log 19). -/
def decodeCpuset (src srcx : RegNum) : Instr :=
  match src.toNat with
  | 0 => .cpuset srcx .psw
  | 1 => .cpuset srcx .tpc
  | 2 => .cpuset srcx .tma
  | 3 => .cpuset srcx .tsv
  | 4 => .cpuUndefined .set srcx (.mmu 0)
  | 5 => .cpuUndefined .set srcx (.mmu 1)
  | 6 => .cpuUndefined .set srcx (.mmu 2)
  | 7 => .cpuUndefined .set srcx (.mmu 3)
  | 8 => .cpuset srcx .cyc
  | 9 => .cpuUndefined .set srcx (.other 0)
  | 10 => .cpuUndefined .set srcx (.other 1)
  | 11 => .cpuUndefined .set srcx (.other 2)
  | 12 => .cpuUndefined .set srcx (.other 3)
  | 13 => .cpuUndefined .set srcx (.other 4)
  | 14 => .cpuUndefined .set srcx (.other 5)
  | _ => .cpuUndefined .set srcx (.other 6)

/-- CPUGET of a defined register: the program-counter form for dst = 0, of which the one of
TPC is RTT (R58, R61). -/
def decodeCpugetDefined (src : CpuReg) (dst : RegNum) : Instr :=
  if dst = 0#4 then
    match src with
    | .tpc => .rtt
    | r => .cpugetPc r
  else .cpuget dst src

/-- CPUGET by its register number (R58, R60). -/
def decodeCpuget (src dst : RegNum) : Instr :=
  match src.toNat with
  | 0 => decodeCpugetDefined .psw dst
  | 1 => decodeCpugetDefined .tpc dst
  | 2 => decodeCpugetDefined .tma dst
  | 3 => decodeCpugetDefined .tsv dst
  | 4 => .cpuUndefined .get dst (.mmu 0)
  | 5 => .cpuUndefined .get dst (.mmu 1)
  | 6 => .cpuUndefined .get dst (.mmu 2)
  | 7 => .cpuUndefined .get dst (.mmu 3)
  | 8 => decodeCpugetDefined .cyc dst
  | 9 => .cpuUndefined .get dst (.other 0)
  | 10 => .cpuUndefined .get dst (.other 1)
  | 11 => .cpuUndefined .get dst (.other 2)
  | 12 => .cpuUndefined .get dst (.other 3)
  | 13 => .cpuUndefined .get dst (.other 4)
  | 14 => .cpuUndefined .get dst (.other 5)
  | _ => .cpuUndefined .get dst (.other 6)

/-- COGET: src = 0 is COSTAT (R60, R110), src = 1..15 a coprocessor register (R111). -/
def decodeCoget (src dst : RegNum) : Instr :=
  if src = 0#4 then .cogetCostat dst else .coget dst src

/-- PLUS: dst = 0 is reserved (R58, R62). -/
def decodePlus (src dst : RegNum) : Instr :=
  if dst = 0#4 then .reservedPlusDst0 src else .plus dst src

/-- ADJUST: dst = 0 is reserved before the selector is looked at (R62), then the selector
table of R59. -/
def decodeAdjust (src dst : RegNum) : Instr :=
  if dst = 0#4 then .reservedAdjustDst0 src
  else
    match src.toNat with
    | 0 => .reservedAdjustSel0 dst
    | 1 => .reservedAdjustSel1 dst
    | 2 => .adjustBcd dst
    | 3 => .adjustEx3 dst
    | 4 => .adjustCmsb dst
    | 5 => .adjustSsq dst
    | 6 => .reservedAdjustSel6 dst
    | 7 => .reservedAdjustSel7 dst
    | 8 => .adjustPlus1 dst
    | 9 => .adjustPlus2 dst
    | 10 => .adjustPlus4 dst
    | 11 => .adjustPlus8 dst
    | 12 => .adjustPlus16 dst
    | 13 => .adjustPlus32 dst
    | 14 => .adjustPlus64 dst
    | _ => .adjustPlus128 dst

/-- The instruction of a word (R58): a special instruction exactly when I[7:4] = 0001 and
I[15] = 0. -/
def decode (w : Half) : Except DecodeError Instr :=
  if opField w ≠ 1#4 then .error (.opNotSpecial w)
  else
    match (fnField w).toNat with
    | 0 => .ok (decodeCpuset (srcField w) (dstField w))
    | 1 => .ok (decodeCpuget (srcField w) (dstField w))
    | 2 => .ok (.coset (dstField w) (srcField w))
    | 3 => .ok (decodeCoget (srcField w) (dstField w))
    | 4 => .ok (decodePlus (srcField w) (dstField w))
    | 5 => .ok (decodeAdjust (srcField w) (dstField w))
    | 6 => .ok (.undefinedFn6 (dstField w) (srcField w))
    | 7 => .ok (.undefinedFn7 (dstField w) (srcField w))
    | _ => .error (.highBitSet w)

/-- The instruction word of two bytes in memory order: the byte at the lower address is
I[7:0] (R55, 20_memory.md R42). -/
def wordOfBytes (lower higher : Byte) : Half := higher ++ lower

/-- The instruction at the front of a list of bytes in memory order, and the bytes after it. -/
def decodeBytes : List Byte → Except DecodeError (Instr × List Byte)
  | lower :: higher :: rest =>
    match decode (wordOfBytes lower higher) with
    | .ok i => .ok (i, rest)
    | .error e => .error e
  | _ => .error .tooShort

/-- The bytes, in memory order, of an instruction given as the opcode table numbers its bits. -/
def tableWordBytes (nbits w : Nat) : List Byte :=
  [BitVec.ofNat 8 (w % 2 ^ nbits), BitVec.ofNat 8 (w % 2 ^ nbits / 256)]

/-- The instruction the decoder reads from a table word, none where it refuses. -/
def decodeTableWord (nbits w : Nat) : Option Instr :=
  match decodeBytes (tableWordBytes nbits w) with
  | .ok (i, _) => some i
  | .error _ => none

/-- The number of a defined special register (10_state.md R21). -/
def CpuReg.number : CpuReg → RegNum
  | .psw => 0
  | .tpc => 1
  | .tma => 2
  | .tsv => 3
  | .cyc => 8

/-- The number of an undefined special register (10_state.md R26, R27). -/
def Config.ExtraReg.number : Config.ExtraReg → RegNum
  | .mmu i => BitVec.ofNat 4 (4 + i.val)
  | .other i => BitVec.ofNat 4 (9 + i.val)

/-- `enc(fn, dst, src)` of 30_encoding.md R70. -/
def assemble (fn : BitVec 4) (dst src : RegNum) : Half :=
  (fn.setWidth 16 <<< 12) ||| (src.setWidth 16 <<< 8) ||| 0x0010#16 ||| dst.setWidth 16

/-- The word of an instruction (R56, R59, R60, R70). -/
def encode : Instr → Half
  | .cpuset srcx src => assemble 0 srcx src.number
  | .cpuget dst src => assemble 1 dst src.number
  | .cpugetPc src => assemble 1 0 src.number
  | .rtt => 0x1110#16
  | .coset srcx src => assemble 2 srcx src
  | .cogetCostat dst => assemble 3 dst 0
  | .coget dst src => assemble 3 dst src
  | .plus dst src => assemble 4 dst src
  | .adjustBcd dst => assemble 5 dst 2
  | .adjustEx3 dst => assemble 5 dst 3
  | .adjustCmsb dst => assemble 5 dst 4
  | .adjustSsq dst => assemble 5 dst 5
  | .adjustPlus1 dst => assemble 5 dst 8
  | .adjustPlus2 dst => assemble 5 dst 9
  | .adjustPlus4 dst => assemble 5 dst 10
  | .adjustPlus8 dst => assemble 5 dst 11
  | .adjustPlus16 dst => assemble 5 dst 12
  | .adjustPlus32 dst => assemble 5 dst 13
  | .adjustPlus64 dst => assemble 5 dst 14
  | .adjustPlus128 dst => assemble 5 dst 15
  | .reservedAdjustSel0 dst => assemble 5 dst 0
  | .reservedAdjustSel1 dst => assemble 5 dst 1
  | .reservedAdjustSel6 dst => assemble 5 dst 6
  | .reservedAdjustSel7 dst => assemble 5 dst 7
  | .reservedAdjustDst0 src => assemble 5 0 src
  | .reservedPlusDst0 src => assemble 4 0 src
  | .cpuUndefined .set dst src => assemble 0 dst src.number
  | .cpuUndefined .get dst src => assemble 1 dst src.number
  | .undefinedFn6 dst src => assemble 6 dst src
  | .undefinedFn7 dst src => assemble 7 dst src

/-- The bytes of an instruction in memory order (R70). -/
def encodeBytes (i : Instr) : List Byte :=
  [(encode i).extractLsb' 0 8, (encode i).extractLsb' 8 8]

end Sys2Proof
end

