-- ==== Sys2Proof/Machine/Fetch.lean ====
section
/-! DEFINITION. The fetch of an instruction and what happens around its execution
(00_scope.md R8, 20_memory.md R43), and the placing of an instruction where it is fetched. -/

namespace Sys2Proof.Machine

/-- What a fetch gives. -/
inductive Fetched where
  /-- the pc is odd (20_memory.md R45) -/
  | oddPc
  /-- the address that is not admitted (60_exceptions.md R148) -/
  | unreadable (va : Word)
  /-- the instruction word -/
  | word (w : Half)
deriving DecidableEq, Repr

/-- The fetch at the pc: `I <- MemRead(A, 2)`, the byte at A being I[7:0] (20_memory.md R43). The
address of a trap is A, or A + 1 if only the second byte is unreadable (60_exceptions.md R148). -/
def fetch (s : State) : Fetched :=
  if s.pc[0] then .oddPc
  else
    match Memory.readByte s.mem s.pc.toNat, Memory.readByte s.mem (s.pc + 1#32).toNat with
    | some lower, some higher => .word (wordOfBytes lower higher)
    | some _, none => .unreadable (s.pc + 1#32)
    | none, _ => .unreadable s.pc

/-- A fetch is a memory reference, which CYC counts by an unstated amount (10_state.md R25; log 13). -/
def countFetch (s : State) : State :=
  { s with cyc := Config.cycAfterFetch s.cyc s.draws, draws := s.draws + 1 }

/-- What precedes the execution of an instruction in a step: the coprocessors run on their own
(10_state.md R30; log 10), and CYC counts the fetch. -/
def beforeExec (s : State) : State := countFetch (runCoprocessors s)

/-- The refusal of a word that is no special instruction (30_encoding.md R63). -/
def refusalOfDecode (w : Half) : DecodeError → Refusal
  | .tooShort => .notSpecialInstruction w
  | .opNotSpecial w' => .notSpecialInstruction w'
  | .highBitSet w' => .notSpecialInstruction w'

/-- One step with a given meaning of the instructions (00_scope.md R8): fetch, decode, execute. -/
def stepWith (execute : Instr → State → Result) (s : State) : Result :=
  match fetch (beforeExec s) with
  | .oddPc => .refused .oddPc
  | .unreadable va => .next (takeTrap (beforeExec s) (.memoryAddressing va))
  | .word w =>
    match decode w with
    | .ok i => execute i (beforeExec s)
    | .error e => .refused (refusalOfDecode w e)

/-- The state with an instruction of `nbits` table bits stored where the next step fetches: its
two bytes at the pc. An odd pc, from which nothing is fetched, is made even (log 38). -/
def placeFetchWord (s : State) (nbits w : Nat) : State :=
  let at' : Word := s.pc &&& ~~~1#32
  { s with pc := at', mem := Memory.write s.mem at' 2 (w % 2 ^ nbits) }

end Sys2Proof.Machine
end

