-- ==== Sys2Proof/Machine/Step.lean ====
section
/-! DEFINITION. One step of the machine, and the placing of the next instruction. -/

namespace Sys2Proof.Machine

/-- One step (00_scope.md R8). -/
def step (s : State) : Host.Outcome State Fault Refusal := stepWith exec s

/-- The state whose next step fetches and runs the instruction given by its table word. -/
def State.withFetchWord (s : State) (nbits w : Nat) : State := placeFetchWord s nbits w

end Sys2Proof.Machine
end

