-- ==== Sys2Proof/Safety.lean ====
section
/-! DEFINITION. The terms claims are made in: parameters that meet the spec's constraints, the
invariant of the machine, the end of a run, and what a step leaves unchanged. -/

namespace Sys2Proof.Safety

open Sys2Proof.Machine Sys2Proof.Config

/-- The positions of the named fields of the PSW (00_scope.md R5, `PSW_LAYOUT`). -/
def pswPositions (l : PswLayout) : List (Fin 32) :=
  [l.n, l.z, l.v, l.c] ++ l.bcdc.toList ++ l.oldLevel.toList ++ l.level.toList

/-- A layout of the PSW: no two named bits share a position, and every named bit is implemented
(10_state.md R15, R20). -/
abbrev PswLayoutValid (l : PswLayout) (mask : Word) : Prop :=
  (pswPositions l).Nodup ∧ ∀ j ∈ pswPositions l, mask.getLsbD j.val = true

/-- The three constraints of 43_coprocessor.md R106 on `COSTAT_LAYOUT`: (a) no implemented bits
enable an absent coprocessor; (b) what a value selects depends on its implemented bits alone;
(c) the value 0 selects no coprocessor and enables none. -/
def CostatLayoutValid (l : CostatLayout) (present : Vector Bool 7) : Prop :=
  (∀ k : CoId, present[k.val] = false → ∀ v : Word, coEnabled l (v &&& l.implMask) k = false)
    ∧ (∀ v : Word, coSelected l (v &&& l.implMask) = coSelected l v)
    ∧ coSelected l 0#32 = none ∧ ∀ k : CoId, coEnabled l 0#32 k = false

/-- The parameters meet the spec's constraints: `TRAP_LEVEL` is a privileged level
(60_exceptions.md R152), and the two layouts are layouts. -/
abbrev ParamsValid (p : Params) : Prop :=
  p.trapLevel ≠ unprivilegedLevel ∧ PswLayoutValid p.pswLayout p.pswImplMask
    ∧ CostatLayoutValid p.costatLayout p.present

/-- The invariant of the machine: memory keeps its canonical form, the parameters meet their
constraints, and no unimplemented bit of COSTAT is set (10_state.md R28). -/
abbrev Inv (s : State) : Prop :=
  Memory.wf s.mem = true ∧ ParamsValid s.cfg ∧ s.costat &&& ~~~s.cfg.costatLayout.implMask = 0#32

/-- The end of a run: the pc is at the launch's `END_PC`, or the word fetched is no special
instruction (70_reset_and_hazards.md R179; log 39). -/
def runEnded (endPc : Word) (s : State) : Prop :=
  s.pc = endPc ∨ ∃ w e, fetch s = .word w ∧ decode w = .error e

/-- Every byte of memory reads as before. -/
def SameMemory (s t : State) : Prop :=
  ∀ a : Nat, Memory.readByte t.mem a = Memory.readByte s.mem a

/-- Every general register but `dst` reads as before. -/
def SameRegsExcept (s t : State) (dst : RegNum) : Prop :=
  ∀ r : RegNum, r ≠ dst → t.reg r = s.reg r

/-- Every general register reads as before. -/
def SameRegs (s t : State) : Prop := ∀ r : RegNum, t.reg r = s.reg r

/-- TPC, TMA, TSV, CYC and the undefined special registers hold what they held. -/
def SameSpecial (s t : State) : Prop :=
  t.tpc = s.tpc ∧ t.tma = s.tma ∧ t.tsv = s.tsv ∧ t.cyc = s.cyc ∧ t.mmu = s.mmu
    ∧ t.extra = s.extra

/-- COSTAT and every coprocessor hold what they held. -/
def SameCoprocessors (s t : State) : Prop := t.costat = s.costat ∧ t.co = s.co

/-- N, Z, V and C may differ; the BCD carry field and the levels hold what they held. -/
def SamePswExceptNzvc (s t : State) : Prop :=
  t.psw.bcdc = s.psw.bcdc ∧ t.psw.oldLevel = s.psw.oldLevel ∧ t.psw.level = s.psw.level

/-- Everything but the general registers, the PSW and the pc is as before. -/
def SameBeyondRegsAndPsw (s t : State) : Prop :=
  SameSpecial s t ∧ SameCoprocessors s t ∧ SameMemory s t ∧ t.cfg = s.cfg

/-- Instruction `i` adds `a` to register `dst` modulo 2^32, moves to the next instruction, and
changes nothing else. -/
def AddsToRegister (i : Instr) (s : State) (dst : RegNum) (a : Nat) : Prop :=
  ∃ t, exec i s = .next t ∧ (t.reg dst).toNat = ((s.reg dst).toNat + a) % 2 ^ 32
    ∧ t.pc = s.pc + 2#32 ∧ SameRegsExcept s t dst ∧ t.psw = s.psw ∧ SameBeyondRegsAndPsw s t

/-- Nibble i of a word (00_scope.md R6). -/
def nibble (w : Word) (i : Nat) : Nat := w.toNat / 16 ^ i % 16

/-- The decimal number of eight digits, one a nibble. -/
def bcdValue (w : Word) : Nat := ((List.range 8).map (fun i => nibble w i * 10 ^ i)).sum

/-- Every nibble is a decimal digit. -/
def IsBcd (w : Word) : Prop := ∀ i < 8, nibble w i ≤ 9

/-- The decimal number of eight excess-3 digits, digit d stored as d + 3 (00_scope.md R9). -/
def excess3Value (w : Word) : Nat := ((List.range 8).map (fun i => (nibble w i - 3) * 10 ^ i)).sum

/-- Every nibble is the excess-3 code of a decimal digit. -/
def IsExcess3 (w : Word) : Prop := ∀ i < 8, 3 ≤ nibble w i ∧ nibble w i ≤ 12

end Sys2Proof.Safety
end

