-- ==== Sys2Proof/Certificates/Slice0/Obligations.lean ====
section
/-! DEFINITION. The statements for the provers. "log n" is notes/assumptions/n.md. -/

open Sys2Proof Sys2Proof.Machine Sys2Proof.Config Sys2Proof.Safety

/-! ### ADJUST -/

/-- 41_adjust.md R82 to R89: for dst = 1..15, ADJUST dst,PLUSn adds n modulo 2^32, sets the pc to
the next instruction and changes nothing else; and its word is the rule's. -/
def Obligations.AdjustPowersOfTwoAdd : Prop :=
  ∀ (dst : RegNum) (s : State), dst ≠ 0#4 →
    (encode (.adjustPlus1 dst) = 0x5810#16 ||| dst.setWidth 16
        ∧ AddsToRegister (.adjustPlus1 dst) s dst 1)
      ∧ (encode (.adjustPlus2 dst) = 0x5910#16 ||| dst.setWidth 16
        ∧ AddsToRegister (.adjustPlus2 dst) s dst 2)
      ∧ (encode (.adjustPlus4 dst) = 0x5A10#16 ||| dst.setWidth 16
        ∧ AddsToRegister (.adjustPlus4 dst) s dst 4)
      ∧ (encode (.adjustPlus8 dst) = 0x5B10#16 ||| dst.setWidth 16
        ∧ AddsToRegister (.adjustPlus8 dst) s dst 8)
      ∧ (encode (.adjustPlus16 dst) = 0x5C10#16 ||| dst.setWidth 16
        ∧ AddsToRegister (.adjustPlus16 dst) s dst 16)
      ∧ (encode (.adjustPlus32 dst) = 0x5D10#16 ||| dst.setWidth 16
        ∧ AddsToRegister (.adjustPlus32 dst) s dst 32)
      ∧ (encode (.adjustPlus64 dst) = 0x5E10#16 ||| dst.setWidth 16
        ∧ AddsToRegister (.adjustPlus64 dst) s dst 64)
      ∧ (encode (.adjustPlus128 dst) = 0x5F10#16 ||| dst.setWidth 16
        ∧ AddsToRegister (.adjustPlus128 dst) s dst 128)

/-- 41_adjust.md R80: ADJUST dst,CMSB adds 2^31 if C is 1, else 0: an addition, whose carry out
of bit 31 is lost. -/
def Obligations.AdjustCmsbAddsCarryToTopBit : Prop :=
  ∀ (dst : RegNum) (s : State), dst ≠ 0#4 →
    encode (.adjustCmsb dst) = 0x5410#16 ||| dst.setWidth 16
      ∧ AddsToRegister (.adjustCmsb dst) s dst (if s.psw.c then 2 ^ 31 else 0)

/-- 41_adjust.md R81: ADJUST dst,SSQ adds 1 if N and V are both 1, else 0. -/
def Obligations.AdjustSsqAddsNAndV : Prop :=
  ∀ (dst : RegNum) (s : State), dst ≠ 0#4 →
    encode (.adjustSsq dst) = 0x5510#16 ||| dst.setWidth 16
      ∧ AddsToRegister (.adjustSsq dst) s dst (if s.psw.n ∧ s.psw.v then 1 else 0)

/-- ADJUST dst,BCD subtracts, in one addition modulo 2^32, 6 from each nibble whose BCD carry bit
is 0. That it is one word addition, and which bit belongs to which nibble, are the spec's own
decisions D9 and D10 (log 25, log 26). -/
def Obligations.AdjustBcdSubtractsSixPerClearCarry : Prop :=
  ∀ (dst : RegNum) (s : State), dst ≠ 0#4 →
    AddsToRegister (.adjustBcd dst) s dst
      (2 ^ 32 - ((List.range 8).map
        (fun i => if s.psw.bcdc.getLsbD i then 0 else 6 * 16 ^ i)).sum)

/-- ADJUST dst,EX3 adds 3 to each nibble whose BCD carry bit is 1 and subtracts 3 from the others,
in one addition modulo 2^32 (the spec's decisions D9 and D10: log 25, log 26). -/
def Obligations.AdjustEx3AddsOrSubtractsThree : Prop :=
  ∀ (dst : RegNum) (s : State), dst ≠ 0#4 →
    AddsToRegister (.adjustEx3 dst) s dst
      (2 ^ 32 + ((List.range 8).map (fun i => if s.psw.bcdc.getLsbD i then 3 * 16 ^ i else 0)).sum
        - ((List.range 8).map (fun i => if s.psw.bcdc.getLsbD i then 0 else 3 * 16 ^ i)).sum)

/-- Where every nibble whose carry bit is 0 is at least 6, ADJUST dst,BCD acts on each nibble on its
own: the two readings of 41_adjust.md R77 agree (the corner case of R78). Which bit belongs to which
nibble is decision D10 (log 26). -/
def Obligations.AdjustBcdActsNibblewise : Prop :=
  ∀ (dst : RegNum) (s : State), dst ≠ 0#4 →
    (∀ i < 8, s.psw.bcdc.getLsbD i = false → 6 ≤ nibble (s.reg dst) i) →
    ∃ t, exec (.adjustBcd dst) s = .next t
      ∧ ∀ i < 8, nibble (t.reg dst) i
          = nibble (s.reg dst) i - (if s.psw.bcdc.getLsbD i then 0 else 6)

/-- Where every nibble with carry bit 1 is at most 12 and every nibble with carry bit 0 is at least
3, ADJUST dst,EX3 acts on each nibble on its own (the corner case of 41_adjust.md R79). Which bit
belongs to which nibble is decision D10 (log 26). -/
def Obligations.AdjustEx3ActsNibblewise : Prop :=
  ∀ (dst : RegNum) (s : State), dst ≠ 0#4 →
    (∀ i < 8, if s.psw.bcdc.getLsbD i then nibble (s.reg dst) i ≤ 12
      else 3 ≤ nibble (s.reg dst) i) →
    ∃ t, exec (.adjustEx3 dst) s = .next t
      ∧ ∀ i < 8, nibble (t.reg dst) i
          = if s.psw.bcdc.getLsbD i then nibble (s.reg dst) i + 3 else nibble (s.reg dst) i - 3

/-- 41_adjust.md R91: where dst holds the sum of two BCD numbers and 0x66666666, and the BCD carry
field the carries out of the nibbles of the last addition, ADJUST dst,BCD gives the decimal sum.
What the additions do is the source's assumption, so it stands as a premise; decisions D9 and D10 are
the spec's (log 25, log 26). -/
def Obligations.AdjustBcdCorrectsDecimalSum : Prop :=
  ∀ (dst : RegNum) (s : State) (x y : Word), dst ≠ 0#4 → IsBcd x → IsBcd y →
    s.reg dst = x + 0x66666666#32 + y →
    (∀ i < 8, s.psw.bcdc.getLsbD i = true ↔
      16 ^ (i + 1) ≤ (x + 0x66666666#32).toNat % 16 ^ (i + 1) + y.toNat % 16 ^ (i + 1)) →
    ∃ t, exec (.adjustBcd dst) s = .next t ∧ IsBcd (t.reg dst)
      ∧ bcdValue (t.reg dst) = (bcdValue x + bcdValue y) % 10 ^ 8

/-- 41_adjust.md R92: where dst holds the sum of two excess-3 numbers, and the BCD carry field the
carries out of its nibbles, ADJUST dst,EX3 gives the excess-3 code of the decimal sum. What the
addition does is the source's assumption, so it stands as a premise; that excess-3 stores a digit as
the digit plus 3 is from general knowledge in the spec (and D9, D10: log 25, log 26). -/
def Obligations.AdjustEx3CorrectsDecimalSum : Prop :=
  ∀ (dst : RegNum) (s : State) (x y : Word), dst ≠ 0#4 → IsExcess3 x → IsExcess3 y →
    s.reg dst = x + y →
    (∀ i < 8, s.psw.bcdc.getLsbD i = true ↔
      16 ^ (i + 1) ≤ x.toNat % 16 ^ (i + 1) + y.toNat % 16 ^ (i + 1)) →
    ∃ t, exec (.adjustEx3 dst) s = .next t ∧ IsExcess3 (t.reg dst)
      ∧ excess3Value (t.reg dst) = (excess3Value x + excess3Value y) % 10 ^ 8

/-! ### PLUS -/

/-- PLUS dst,src with both fields 1..15 adds x[src] to x[dst] modulo 2^32, src = dst doubling it,
and changes nothing else (42_plus.md; that the sum wraps is decision D36, log 24). -/
def Obligations.PlusAddsRegister : Prop :=
  ∀ (dst src : RegNum) (s : State), dst ≠ 0#4 → src ≠ 0#4 →
    AddsToRegister (.plus dst src) s dst (s.reg src).toNat

/-- PLUS dst,R0 adds the address of the instruction, or of the next one, by `PC_OPERAND_OFFSET`
(the reading of the mark (pc) and the parameter are decisions D4 and D5: log 6, log 27). -/
def Obligations.PlusOfZeroAddsProgramCounter : Prop :=
  ∀ (dst : RegNum) (s : State), dst ≠ 0#4 →
    (s.cfg.pcOperandOffset = .thisInstruction →
        AddsToRegister (.plus dst 0#4) s dst s.pc.toNat)
      ∧ (s.cfg.pcOperandOffset = .nextInstruction →
        AddsToRegister (.plus dst 0#4) s dst (s.pc.toNat + 2))

/-! ### Reserved and undefined words -/

/-- The reserved words of ADJUST and PLUS: refused by name under `RESERVED_POLICY = refuse`, the
unimplemented-instruction trap under `trap` (the spec's decisions D6 and D8: log 17). -/
def Obligations.ReservedWordsFollowPolicy : Prop :=
  ∀ (f : RegNum) (s : State),
    (s.cfg.reservedPolicy = .trap →
      exec (.reservedAdjustSel0 f) s = .next (takeTrap s .unimplementedInstruction)
        ∧ exec (.reservedAdjustSel1 f) s = .next (takeTrap s .unimplementedInstruction)
        ∧ exec (.reservedAdjustSel6 f) s = .next (takeTrap s .unimplementedInstruction)
        ∧ exec (.reservedAdjustSel7 f) s = .next (takeTrap s .unimplementedInstruction)
        ∧ exec (.reservedAdjustDst0 f) s = .next (takeTrap s .unimplementedInstruction)
        ∧ exec (.reservedPlusDst0 f) s = .next (takeTrap s .unimplementedInstruction))
    ∧ (s.cfg.reservedPolicy = .refuse →
      exec (.reservedAdjustSel0 f) s = .refused .reservedAdjustSelector
        ∧ exec (.reservedAdjustSel1 f) s = .refused .reservedAdjustSelector
        ∧ exec (.reservedAdjustSel6 f) s = .refused .reservedAdjustSelector
        ∧ exec (.reservedAdjustSel7 f) s = .refused .reservedAdjustSelector
        ∧ exec (.reservedAdjustDst0 f) s = .refused .reservedAdjustDst0
        ∧ exec (.reservedPlusDst0 f) s = .refused .reservedPlusDst0)

/-- fn 0110 and 0111 are refused and not trapped: 30_encoding.md section 4, the spec's decision D32
(log 20). -/
def Obligations.UndefinedFunctionCodesAreRefused : Prop :=
  ∀ (dst src : RegNum) (s : State),
    exec (.undefinedFn6 dst src) s = .refused .undefinedFunctionCode
      ∧ exec (.undefinedFn7 dst src) s = .refused .undefinedFunctionCode

/-! ### The special CPU registers -/

/-- 44_cpu_special.md R126: CPUGET dst,src, dst = 1..15, takes the privilege violation at level 1111;
at every other level dst takes the special register and nothing else changes. What CYC gives is a
draw and is left open (log 13). -/
def Obligations.CpugetCopiesSpecialRegister : Prop :=
  ∀ (dst : RegNum) (src : CpuReg) (s : State), dst ≠ 0#4 →
    encode (.cpuget dst src)
        = 0x1010#16 ||| (src.number.setWidth 16 <<< 8) ||| dst.setWidth 16
      ∧ (s.psw.level = 0xF#4 → exec (.cpuget dst src) s = .next (takeTrap s .privilegeViolation))
      ∧ (s.psw.level ≠ 0xF#4 →
        ∃ t, exec (.cpuget dst src) s = .next t
          ∧ (src = .psw → t.reg dst = pswWord s.cfg.pswLayout s.psw)
          ∧ (src = .tpc → t.reg dst = s.tpc) ∧ (src = .tma → t.reg dst = s.tma)
          ∧ (src = .tsv → t.reg dst = s.tsv)
          ∧ t.pc = s.pc + 2#32 ∧ SameRegsExcept s t dst ∧ t.psw = s.psw
          ∧ SameBeyondRegsAndPsw s t)

/-- The word CPUGET reads from the PSW has the named bits at the positions of `PSW_LAYOUT` and zero
elsewhere, whatever the layout. -/
def Obligations.CpugetPswHasFieldsAtTheirPositions : Prop :=
  ∀ (dst : RegNum) (s : State), dst ≠ 0#4 → s.psw.level ≠ unprivilegedLevel →
    ∃ t, exec (.cpuget dst .psw) s = .next t
      ∧ ∀ j < 32, (t.reg dst).getLsbD j = true ↔
          ∃ f ∈ pswBits s.cfg.pswLayout s.psw, f.1.val = j ∧ f.2 = true

/-- The word CPUGET reads from the PSW under the default layout, from the family's manual by general
knowledge (log 4). -/
def Obligations.CpugetPswUnderDefaultLayout : Prop :=
  ∀ (dst : RegNum) (s : State), dst ≠ 0#4 → s.psw.level ≠ unprivilegedLevel →
    s.cfg.pswLayout = defaultPswLayout →
    ∃ t, exec (.cpuget dst .psw) s = .next t
      ∧ t.reg dst = s.psw.level ++ s.psw.oldLevel ++ 0#8 ++ s.psw.bcdc ++ 0#4
          ++ BitVec.ofBool s.psw.n ++ BitVec.ofBool s.psw.z ++ BitVec.ofBool s.psw.v
          ++ BitVec.ofBool s.psw.c

/-- CPUGET R0,src at a privileged level: the pc takes the special register as it was before, the
level takes the old level, and nothing else changes; that OLDLEVEL is unchanged is decision D16
(log 30). What CYC gives is left open (log 13). -/
def Obligations.CpugetOfZeroLoadsPcAndRestoresLevel : Prop :=
  ∀ (src : CpuReg) (s : State), s.psw.level ≠ unprivilegedLevel →
    ∃ t, exec (.cpugetPc src) s = .next t
      ∧ (src = .psw → t.pc = pswWord s.cfg.pswLayout s.psw)
      ∧ (src = .tpc → t.pc = s.tpc) ∧ (src = .tma → t.pc = s.tma) ∧ (src = .tsv → t.pc = s.tsv)
      ∧ t.psw = { s.psw with level := s.psw.oldLevel } ∧ SameRegs s t ∧ SameBeyondRegsAndPsw s t

/-- 44_cpu_special.md R128: RTT is the word 0x1110; at level 1111 it takes the privilege violation;
otherwise the pc takes TPC and the level the old level, and nothing else changes. -/
def Obligations.RttReturnsFromTrap : Prop :=
  encode .rtt = 0x1110#16 ∧ encodeBytes .rtt = [0x10#8, 0x11#8]
    ∧ ∀ s : State,
      (s.psw.level = 0xF#4 → exec .rtt s = .next (takeTrap s .privilegeViolation))
        ∧ (s.psw.level ≠ 0xF#4 →
          ∃ t, exec .rtt s = .next t ∧ t.pc = s.tpc
            ∧ t.psw = { s.psw with level := s.psw.oldLevel } ∧ SameRegs s t
            ∧ SameBeyondRegsAndPsw s t)

/-- CPUSET srcx,src for TPC, TMA and TSV at a privileged level: the one special register takes the
general register, or 0 for srcx = 0, and nothing else changes (the mark (0) is read as decision
D5 has it: log 27). -/
def Obligations.CpusetWritesTrapRegisters : Prop :=
  ∀ (srcx : RegNum) (s : State) (v : Word), s.psw.level ≠ unprivilegedLevel →
    (srcx = 0#4 → v = 0#32) → (srcx ≠ 0#4 → v = s.reg srcx) →
    (∃ t, exec (.cpuset srcx .tpc) s = .next t ∧ t.tpc = v ∧ t.tma = s.tma ∧ t.tsv = s.tsv
        ∧ t.cyc = s.cyc ∧ t.mmu = s.mmu ∧ t.extra = s.extra ∧ t.pc = s.pc + 2#32
        ∧ SameRegs s t ∧ t.psw = s.psw ∧ SameCoprocessors s t ∧ SameMemory s t ∧ t.cfg = s.cfg)
      ∧ (∃ t, exec (.cpuset srcx .tma) s = .next t ∧ t.tma = v ∧ t.tpc = s.tpc ∧ t.tsv = s.tsv
        ∧ t.cyc = s.cyc ∧ t.mmu = s.mmu ∧ t.extra = s.extra ∧ t.pc = s.pc + 2#32
        ∧ SameRegs s t ∧ t.psw = s.psw ∧ SameCoprocessors s t ∧ SameMemory s t ∧ t.cfg = s.cfg)
      ∧ (∃ t, exec (.cpuset srcx .tsv) s = .next t ∧ t.tsv = v ∧ t.tpc = s.tpc ∧ t.tma = s.tma
        ∧ t.cyc = s.cyc ∧ t.mmu = s.mmu ∧ t.extra = s.extra ∧ t.pc = s.pc + 2#32
        ∧ SameRegs s t ∧ t.psw = s.psw ∧ SameCoprocessors s t ∧ SameMemory s t ∧ t.cfg = s.cfg)

/-- CPUSET srcx,PSW at a privileged level: every named field takes the bits of the value at its
positions, bits outside `PSW_IMPL_MASK` dropped, and nothing else changes (decision D15: log 35). -/
def Obligations.CpusetPswWritesEveryField : Prop :=
  ∀ (srcx : RegNum) (s : State) (v : Word), s.psw.level ≠ unprivilegedLevel →
    v = (if srcx = 0#4 then 0#32 else s.reg srcx) &&& s.cfg.pswImplMask →
    ∃ t, exec (.cpuset srcx .psw) s = .next t
      ∧ t.psw.n = v.getLsbD s.cfg.pswLayout.n ∧ t.psw.z = v.getLsbD s.cfg.pswLayout.z
      ∧ t.psw.v = v.getLsbD s.cfg.pswLayout.v ∧ t.psw.c = v.getLsbD s.cfg.pswLayout.c
      ∧ (∀ i : Fin 8, t.psw.bcdc.getLsbD i.val = v.getLsbD (s.cfg.pswLayout.bcdc[i.val]).val)
      ∧ (∀ i : Fin 4,
        t.psw.oldLevel.getLsbD i.val = v.getLsbD (s.cfg.pswLayout.oldLevel[i.val]).val)
      ∧ (∀ i : Fin 4, t.psw.level.getLsbD i.val = v.getLsbD (s.cfg.pswLayout.level[i.val]).val)
      ∧ t.pc = s.pc + 2#32 ∧ SameRegs s t ∧ SameBeyondRegsAndPsw s t

/-- CPUSET srcx,CYC at a privileged level completes; only CYC may change, to a value left open
(decision D14: log 13). -/
def Obligations.CpusetCycCompletes : Prop :=
  ∀ (srcx : RegNum) (s : State), s.psw.level ≠ unprivilegedLevel →
    ∃ t, exec (.cpuset srcx .cyc) s = .next t ∧ t.pc = s.pc + 2#32 ∧ t.tpc = s.tpc
      ∧ t.tma = s.tma ∧ t.tsv = s.tsv ∧ t.mmu = s.mmu ∧ t.extra = s.extra ∧ SameRegs s t
      ∧ t.psw = s.psw ∧ SameCoprocessors s t ∧ SameMemory s t ∧ t.cfg = s.cfg

/-- At level 1111 every CPUGET, CPUSET and RTT, of a defined or an undefined register, takes the
privilege violation and does nothing else; that the check comes before the register number is
looked at is decision D21 (log 31). -/
def Obligations.PrivilegedInstructionsTrapAtLevel15 : Prop :=
  ∀ (f : RegNum) (r : CpuReg) (x : ExtraReg) (a : CpuAccess) (s : State), s.psw.level = 0xF#4 →
    exec (.cpuset f r) s = .next (takeTrap s .privilegeViolation)
      ∧ exec (.cpuget f r) s = .next (takeTrap s .privilegeViolation)
      ∧ exec (.cpugetPc r) s = .next (takeTrap s .privilegeViolation)
      ∧ exec .rtt s = .next (takeTrap s .privilegeViolation)
      ∧ exec (.cpuUndefined a f x) s = .next (takeTrap s .privilegeViolation)

/-- For a layout whose named bits have positions of their own, all implemented, writing to the PSW
the word that was read from it gives the same PSW. -/
def Obligations.PswWordRoundTrip : Prop :=
  ∀ (l : PswLayout) (mask : Word) (p : Psw), PswLayoutValid l mask →
    pswOfWord l (pswWord l p &&& mask) = p

/-- A special register that `EXTRA_CPU_REGS` supplies is read and written by its own functions,
which the source leaves open (decision D13: log 16). -/
def Obligations.SuppliedExtraRegistersAreReadAndWritten : Prop :=
  ∀ (f : RegNum) (x : ExtraReg) (s : State), s.psw.level ≠ unprivilegedLevel →
    x ∈ s.cfg.extraCpuRegs →
    (∃ t, exec (.cpuUndefined .set f x) s = .next t
        ∧ t.extraCell x = Config.extraWrite x (s.extraCell x) (s.reg f)
        ∧ (∀ y, y ≠ x → t.extraCell y = s.extraCell y)
        ∧ t.pc = s.pc + 2#32 ∧ SameRegs s t ∧ t.psw = s.psw ∧ t.tpc = s.tpc ∧ t.tma = s.tma
        ∧ t.tsv = s.tsv ∧ t.cyc = s.cyc ∧ SameCoprocessors s t ∧ SameMemory s t
        ∧ t.cfg = s.cfg)
      ∧ (f ≠ 0#4 → ∃ t, exec (.cpuUndefined .get f x) s = .next t
        ∧ t.reg f = Config.extraRead x (s.extraCell x) s.draws
        ∧ t.pc = s.pc + 2#32 ∧ SameRegsExcept s t f ∧ t.psw = s.psw
        ∧ SameBeyondRegsAndPsw s t)
      ∧ (∃ t, exec (.cpuUndefined .get 0#4 x) s = .next t
        ∧ t.pc = Config.extraRead x (s.extraCell x) s.draws
        ∧ t.psw = { s.psw with level := s.psw.oldLevel } ∧ SameRegs s t
        ∧ SameBeyondRegsAndPsw s t)

/-- CPUGET or CPUSET, at a privileged level, of a special register the CPU does not implement follows
`RESERVED_POLICY` and never reads as a made-up value (decision D13: log 16, log 17). -/
def Obligations.MissingSpecialRegistersFollowPolicy : Prop :=
  ∀ (a : CpuAccess) (f : RegNum) (x : ExtraReg) (s : State), s.psw.level ≠ unprivilegedLevel →
    x ∉ s.cfg.extraCpuRegs →
    (s.cfg.reservedPolicy = .refuse →
        exec (.cpuUndefined a f x) s = .refused .undefinedCpuRegister)
      ∧ (s.cfg.reservedPolicy = .trap →
        exec (.cpuUndefined a f x) s = .next (takeTrap s .unimplementedInstruction))

/-! ### Coprocessors -/

/-- COSET srcx,COSTAT on a Hawk: COSTAT takes the implemented bits of the value; a coprocessor that
is not left present and disabled keeps its state; nothing else changes. What a disabled one holds
is left open (decision D35: log 15; the masked store is decision D22: log 34). -/
def Obligations.CosetWritesCostat : Prop :=
  ∀ (srcx : RegNum) (s : State), s.cfg.hasCoprocessors = true →
    ∃ t, exec (.coset srcx 0#4) s = .next t
      ∧ t.costat = (if srcx = 0#4 then 0#32 else s.reg srcx) &&& s.cfg.costatLayout.implMask
      ∧ (∀ k : CoId, s.cfg.present[k.val] = false
          ∨ coEnabled s.cfg.costatLayout t.costat k = true → t.co[k.val] = s.co[k.val])
      ∧ t.pc = s.pc + 2#32 ∧ SameRegs s t ∧ t.psw = s.psw ∧ SameSpecial s t ∧ SameMemory s t
      ∧ t.cfg = s.cfg

/-- COSET srcx,src with src = 1..15, where the selected coprocessor is present and enabled: that
coprocessor's `CoWrite` takes the value, and nothing else changes (that COSET never waits, and that
srcx = 0 gives 0, are decisions D24 and D5: log 44, log 27). -/
def Obligations.CosetWritesSelectedCoprocessor : Prop :=
  ∀ (srcx src : RegNum) (k : CoId) (s : State), s.cfg.hasCoprocessors = true → src ≠ 0#4 →
    coSelected s.cfg.costatLayout (costatValue s) = some k → s.cfg.present[k.val] = true →
    coEnabled s.cfg.costatLayout (costatValue s) k = true →
    ∃ t, exec (.coset srcx src) s = .next t
      ∧ t.co[k.val] = Config.coWrite k s.co[k.val] src (if srcx = 0#4 then 0#32 else s.reg srcx)
      ∧ (∀ j : CoId, j ≠ k → t.co[j.val] = s.co[j.val]) ∧ t.costat = s.costat
      ∧ t.pc = s.pc + 2#32 ∧ SameRegs s t ∧ t.psw = s.psw ∧ SameSpecial s t ∧ SameMemory s t
      ∧ t.cfg = s.cfg

/-- COGET dst,COSTAT on a Hawk: with dst = 0 it is refused under `COGET_DST0 = refuse`; otherwise dst,
if not 0, takes COSTAT with its unimplemented bits zero, Z tells whether that is 0, N, V and C are
cleared, and nothing else changes. What dst = 0 does is decision D7 (log 18), that Z is cleared for
another value is decision D25 (log 33). -/
def Obligations.CogetReadsCostat : Prop :=
  ∀ (dst : RegNum) (s : State), s.cfg.hasCoprocessors = true →
    (dst = 0#4 → s.cfg.cogetDst0 = .refuse → exec (.cogetCostat dst) s = .refused .cogetDst0)
      ∧ (dst ≠ 0#4 ∨ s.cfg.cogetDst0 = .discard →
        ∃ t, exec (.cogetCostat dst) s = .next t
          ∧ (dst ≠ 0#4 → t.reg dst = s.costat &&& s.cfg.costatLayout.implMask)
          ∧ t.psw.n = false ∧ t.psw.v = false ∧ t.psw.c = false
          ∧ (t.psw.z = true ↔ s.costat &&& s.cfg.costatLayout.implMask = 0#32)
          ∧ SamePswExceptNzvc s t ∧ t.pc = s.pc + 2#32 ∧ SameRegsExcept s t dst
          ∧ SameBeyondRegsAndPsw s t)

/-- COGET dst,src with src = 1..15 on a Hawk: with dst = 0 it is refused under `COGET_DST0 = refuse`
(decision D7: log 18); otherwise, where the selected coprocessor is present, enabled and ready, the
value, the condition codes and the coprocessor's new state are those of its `CoRead`, and nothing
else changes (decisions D24 and D25: log 9, log 33). -/
def Obligations.CogetReadsReadyCoprocessor : Prop :=
  ∀ (dst src : RegNum) (s : State), s.cfg.hasCoprocessors = true → src ≠ 0#4 →
    (dst = 0#4 → s.cfg.cogetDst0 = .refuse → exec (.coget dst src) s = .refused .cogetDst0)
      ∧ ∀ k : CoId, dst ≠ 0#4 ∨ s.cfg.cogetDst0 = .discard →
        coSelected s.cfg.costatLayout (costatValue s) = some k → s.cfg.present[k.val] = true →
        coEnabled s.cfg.costatLayout (costatValue s) k = true → coReady s.co[k.val] src = true →
        ∃ t, exec (.coget dst src) s = .next t
          ∧ (dst ≠ 0#4 → t.reg dst = (Config.coRead k s.co[k.val] src).value)
          ∧ t.psw.n = (Config.coRead k s.co[k.val] src).flags.n
          ∧ t.psw.z = (Config.coRead k s.co[k.val] src).flags.z
          ∧ t.psw.v = (Config.coRead k s.co[k.val] src).flags.v
          ∧ t.psw.c = (Config.coRead k s.co[k.val] src).flags.c
          ∧ t.co[k.val] = (Config.coRead k s.co[k.val] src).next
          ∧ (∀ j : CoId, j ≠ k → t.co[j.val] = s.co[j.val]) ∧ t.costat = s.costat
          ∧ SamePswExceptNzvc s t ∧ t.pc = s.pc + 2#32 ∧ SameRegsExcept s t dst
          ∧ SameSpecial s t ∧ SameMemory s t ∧ t.cfg = s.cfg

/-- COGET dst,src of a coprocessor that can be used holds the CPU until the coprocessor, by steps of
its own, is ready for the register, and then completes with what `CoRead` gives in that state; nothing
else of the machine changes (43_coprocessor.md section 2; decisions D24 and D25: log 33). That the
hold and the read are one step of the model is the model's choice (log 10). -/
def Obligations.CogetWaitsUntilReady : Prop :=
  ∀ (dst src : RegNum) (k : CoId) (s : State), s.cfg.hasCoprocessors = true → src ≠ 0#4 →
    dst ≠ 0#4 ∨ s.cfg.cogetDst0 = .discard → coOk s = some k →
    ∃ n t, exec (.coget dst src) s = .next t
      ∧ (∀ m < n, coReady (coSteps k m s.co[k.val]) src = false)
      ∧ coReady (coSteps k n s.co[k.val]) src = true
      ∧ (dst ≠ 0#4 → t.reg dst = (Config.coRead k (coSteps k n s.co[k.val]) src).value)
      ∧ t.psw.n = (Config.coRead k (coSteps k n s.co[k.val]) src).flags.n
      ∧ t.psw.z = (Config.coRead k (coSteps k n s.co[k.val]) src).flags.z
      ∧ t.psw.v = (Config.coRead k (coSteps k n s.co[k.val]) src).flags.v
      ∧ t.psw.c = (Config.coRead k (coSteps k n s.co[k.val]) src).flags.c
      ∧ t.co[k.val] = (Config.coRead k (coSteps k n s.co[k.val]) src).next
      ∧ (∀ j : CoId, j ≠ k → t.co[j.val] = s.co[j.val]) ∧ t.costat = s.costat
      ∧ SamePswExceptNzvc s t ∧ t.pc = s.pc + 2#32 ∧ SameRegsExcept s t dst
      ∧ SameSpecial s t ∧ SameMemory s t ∧ t.cfg = s.cfg

/-- The law of 43_coprocessor.md section 1: from any state of any coprocessor, finitely many steps of
its own reach a state in which it is ready for a given register. That the law is assumed is decision
D24 (log 11). -/
def Obligations.CoprocessorsBecomeReady : Prop :=
  ∀ (k : CoId) (c : CoState) (src : RegNum), ∃ n, coReady (coSteps k n c) src = true

/-- COGET and COSET with src = 1..15 take the coprocessor trap when no coprocessor is selected
(decision D23: log 32), or the selected one is absent or disabled, and nothing else happens. -/
def Obligations.UnusableCoprocessorTraps : Prop :=
  ∀ (f src : RegNum) (s : State), s.cfg.hasCoprocessors = true → src ≠ 0#4 →
    (∀ k, coSelected s.cfg.costatLayout (costatValue s) = some k →
      s.cfg.present[k.val] = false ∨ coEnabled s.cfg.costatLayout (costatValue s) k = false) →
    exec (.coset f src) s = .next (takeTrap s .coprocessorTrap)
      ∧ (f ≠ 0#4 ∨ s.cfg.cogetDst0 = .discard →
        exec (.coget f src) s = .next (takeTrap s .coprocessorTrap))

/-- On a Sparrowhawk every COGET and COSET, of COSTAT too, takes the unimplemented-instruction trap
(that it is this trap is decision D26: log 42). -/
def Obligations.SparrowhawkCoprocessorInstructionsTrap : Prop :=
  ∀ (f src : RegNum) (s : State), s.cfg.hasCoprocessors = false →
    exec (.coset f src) s = .next (takeTrap s .unimplementedInstruction)
      ∧ exec (.cogetCostat f) s = .next (takeTrap s .unimplementedInstruction)
      ∧ exec (.coget f src) s = .next (takeTrap s .unimplementedInstruction)

/-- The presence test of 43_coprocessor.md section 4: COSET srcx,COSTAT and then COGET dst,COSTAT leave
in dst the implemented bits of what was written, and Z = 1 exactly when none of them stuck (the
masked store and the clearing of Z are decisions D22 and D25: log 34, log 33). -/
def Obligations.CostatReadsBackImplementedBits : Prop :=
  ∀ (srcx dst : RegNum) (s : State), s.cfg.hasCoprocessors = true → dst ≠ 0#4 →
    ∃ u t, exec (.coset srcx 0#4) s = .next u ∧ exec (.cogetCostat dst) u = .next t
      ∧ t.reg dst = s.reg srcx &&& s.cfg.costatLayout.implMask
      ∧ (t.psw.z = true ↔ s.reg srcx &&& s.cfg.costatLayout.implMask = 0#32)

/-- In a state of the invariant, COSET of 0 to COSTAT leaves no coprocessor enabled and none selected,
so that every COSET and COGET of a coprocessor register then takes the coprocessor trap
(43_coprocessor.md section 4; that it traps where none is selected is decision D23: log 32, and what
dst = 0 does decision D7: log 18). -/
def Obligations.CosetOfZeroDeselects : Prop :=
  ∀ (f src : RegNum) (s : State), Inv s → s.cfg.hasCoprocessors = true → src ≠ 0#4 →
    ∃ u, exec (.coset 0#4 0#4) s = .next u
      ∧ coSelected u.cfg.costatLayout (costatValue u) = none ∧ coOk u = none
      ∧ (∀ k : CoId, coEnabled u.cfg.costatLayout (costatValue u) k = false)
      ∧ exec (.coset f src) u = .next (takeTrap u .coprocessorTrap)
      ∧ (f ≠ 0#4 ∨ s.cfg.cogetDst0 = .discard →
        exec (.coget f src) u = .next (takeTrap u .coprocessorTrap))

/-- In a state of the invariant an absent coprocessor's enable bit reads as zero, so selecting it
gives no access: constraint (a) of 43_coprocessor.md section 1. -/
def Obligations.AbsentCoprocessorIsNeverEnabled : Prop :=
  ∀ (k : CoId) (s : State), Inv s → s.cfg.present[k.val] = false →
    coEnabled s.cfg.costatLayout s.costat k = false
      ∧ coEnabled s.cfg.costatLayout (costatValue s) k = false ∧ coOk s ≠ some k

/-! ### Traps -/

/-- Trap entry, for every cause: TPC takes the address of the instruction or of the next one, as
`TPC_OFFSET` says, TMA the faulting address after a memory-addressing trap, OLDLEVEL the level, the
level `TRAP_LEVEL`, the pc the vector of the cause; nothing else changes. All but the first
sentences are the spec's decisions D17 to D20 (log 29). -/
def Obligations.TrapEntrySavesAndVectors : Prop :=
  ∀ (s : State) (c : Trap),
    (s.cfg.tpcOffset = .thisInstruction → (takeTrap s c).tpc = s.pc)
      ∧ (s.cfg.tpcOffset = .nextInstruction → (takeTrap s c).tpc = s.pc + 2#32)
      ∧ (∀ va, c = .memoryAddressing va →
        (takeTrap s c).tma = va ∧ (takeTrap s c).pc = s.cfg.trapVector.memoryAddressing)
      ∧ (c = .unimplementedInstruction →
        (takeTrap s c).pc = s.cfg.trapVector.unimplementedInstruction)
      ∧ (c = .privilegeViolation → (takeTrap s c).pc = s.cfg.trapVector.privilegeViolation)
      ∧ (c = .coprocessorTrap → (takeTrap s c).pc = s.cfg.trapVector.coprocessorTrap)
      ∧ (takeTrap s c).psw.oldLevel = s.psw.level ∧ (takeTrap s c).psw.level = s.cfg.trapLevel
      ∧ (takeTrap s c).psw.n = s.psw.n ∧ (takeTrap s c).psw.z = s.psw.z
      ∧ (takeTrap s c).psw.v = s.psw.v ∧ (takeTrap s c).psw.c = s.psw.c
      ∧ (takeTrap s c).psw.bcdc = s.psw.bcdc
      ∧ SameRegs s (takeTrap s c) ∧ (takeTrap s c).tsv = s.tsv ∧ (takeTrap s c).cyc = s.cyc
      ∧ (takeTrap s c).mmu = s.mmu ∧ (takeTrap s c).extra = s.extra
      ∧ SameCoprocessors s (takeTrap s c) ∧ SameMemory s (takeTrap s c)
      ∧ (takeTrap s c).cfg = s.cfg

/-- RTT right after a trap, with `TPC_OFFSET` 0 and a privileged `TRAP_LEVEL`, goes back to the
trapping instruction at the level it had (decisions D17 and D18: log 6, log 29). -/
def Obligations.RttUndoesTrapEntry : Prop :=
  ∀ (s : State) (c : Trap), s.cfg.tpcOffset = .thisInstruction →
    s.cfg.trapLevel ≠ unprivilegedLevel →
    ∃ t, exec .rtt (takeTrap s c) = .next t ∧ t.pc = s.pc ∧ t.psw.level = s.psw.level
      ∧ SameRegs s t ∧ t.psw.bcdc = s.psw.bcdc ∧ t.psw.n = s.psw.n ∧ t.psw.z = s.psw.z
      ∧ t.psw.v = s.psw.v ∧ t.psw.c = s.psw.c ∧ t.tsv = s.tsv ∧ SameCoprocessors s t
      ∧ SameMemory s t

/-- A trap taken in a handler overwrites TPC and the old level: of the first trap's return address
and level nothing is left in them (60_exceptions.md section 3; decision D33: log 29). -/
def Obligations.NestedTrapLosesFirstReturn : Prop :=
  ∀ (s : State) (c d : Trap),
    (takeTrap (takeTrap s c) d).tpc
        = trapVector s.cfg.trapVector c + pcOffsetBytes s.cfg.tpcOffset
      ∧ (takeTrap (takeTrap s c) d).psw.oldLevel = s.cfg.trapLevel

/-! ### The step -/

/-- A step runs the decoded instruction: where the two bytes at an even pc decode to i, the step is
exec of i, at the state in which the coprocessors have made their own progress and CYC has counted
the fetch; that state differs from s in CYC, the draws and the coprocessors alone, each of which has
taken some number of its own steps (log 10, log 13). -/
def Obligations.StepRunsDecodedInstruction : Prop :=
  ∀ (s : State) (lower higher : Byte) (i : Instr), s.pc[0] = false →
    Memory.readByte s.mem s.pc.toNat = some lower →
    Memory.readByte s.mem (s.pc + 1#32).toNat = some higher →
    decode (higher ++ lower) = .ok i →
    step s = exec i (beforeExec s) ∧ (beforeExec s).pc = s.pc ∧ SameRegs s (beforeExec s)
      ∧ (beforeExec s).psw = s.psw ∧ (beforeExec s).tpc = s.tpc ∧ (beforeExec s).tma = s.tma
      ∧ (beforeExec s).tsv = s.tsv ∧ (beforeExec s).mmu = s.mmu ∧ (beforeExec s).extra = s.extra
      ∧ (beforeExec s).costat = s.costat ∧ SameMemory s (beforeExec s)
      ∧ (beforeExec s).cfg = s.cfg
      ∧ ∀ k : CoId, ∃ n, (beforeExec s).co[k.val] = coSteps k n s.co[k.val]

/-- A fetch of an address the launch memory does not admit takes the memory-addressing trap with
that address in TMA: the pc, or the next address if only the second byte is missing (decision D31:
log 21). It is trap entry at the state in which the coprocessors have made their own progress and CYC
has counted the fetch (log 10, log 13); what TPC, the levels and the pc then hold are the choices of
60_exceptions.md section 2, decisions D17, D18 and D20 (log 29). -/
def Obligations.StepTrapsOnUnadmittedFetch : Prop :=
  ∀ (s : State) (va : Word), s.pc[0] = false →
    (va = s.pc ∧ Memory.readByte s.mem s.pc.toNat = none
      ∨ va = s.pc + 1#32 ∧ (∃ b, Memory.readByte s.mem s.pc.toNat = some b)
        ∧ Memory.readByte s.mem (s.pc + 1#32).toNat = none) →
    ∃ t, step s = .next t ∧ t = takeTrap (beforeExec s) (.memoryAddressing va) ∧ t.tma = va
      ∧ t.pc = s.cfg.trapVector.memoryAddressing
      ∧ t.tpc = s.pc + (if s.cfg.tpcOffset = .nextInstruction then 2#32 else 0#32)
      ∧ t.psw = { s.psw with oldLevel := s.psw.level, level := s.cfg.trapLevel } ∧ SameRegs s t
      ∧ t.tsv = s.tsv ∧ t.mmu = s.mmu ∧ t.extra = s.extra ∧ t.costat = s.costat
      ∧ (∀ k : CoId, ∃ n, t.co[k.val] = coSteps k n s.co[k.val]) ∧ SameMemory s t ∧ t.cfg = s.cfg

/-- A step from an odd pc is refused (decision D2: log 23), and so is a word that is no special
instruction (decision D32: log 20). -/
def Obligations.StepRefusesOddPcAndOtherWords : Prop :=
  ∀ s : State, (s.pc[0] = true → step s = .refused .oddPc)
    ∧ ∀ (lower higher : Byte), s.pc[0] = false →
      Memory.readByte s.mem s.pc.toNat = some lower →
      Memory.readByte s.mem (s.pc + 1#32).toNat = some higher →
      lower.extractLsb' 4 4 ≠ 1#4 ∨ higher[7] = true →
      step s = .refused (.notSpecialInstruction (higher ++ lower))

/-- Under the parameters that refuse nothing (decisions D6 to D8: log 17, log 18), a step is refused
only at an odd pc (decision D2: log 23), at a word that is no special instruction, and at fn 0110 and
0111 (decision D32: log 20): every other step has a next state. That a COGET which waits completes in
its step is the model's choice, by the law of decision D24 (log 10, log 11). -/
def Obligations.EveryOtherStepHasNextState : Prop :=
  ∀ s : State, s.cfg.reservedPolicy = .trap → s.cfg.cogetDst0 = .discard →
    s.pc[0] = false →
    (∀ lower higher, Memory.readByte s.mem s.pc.toNat = some lower →
      Memory.readByte s.mem (s.pc + 1#32).toNat = some higher →
      lower.extractLsb' 4 4 = 1#4 ∧ (higher.extractLsb' 4 4).toNat < 6) →
    ∃ t, step s = .next t

/-- A run ends at the launch's `END_PC`, and otherwise exactly where the step is refused because the
word fetched is no special instruction: no other refusal ends a run (70_reset_and_hazards.md section
5; decisions D37 and D32: log 39, log 20). -/
def Obligations.RunEndsAtEndPcOrOtherWord : Prop :=
  ∀ (endPc : Word) (s : State), runEnded endPc s ↔
    s.pc = endPc ∨ ∃ w, step s = .refused (.notSpecialInstruction w)

/-- The word that `withFetchWord` places is the word the next step runs, from any even pc. -/
def Obligations.PlacedWordIsTheOneRun : Prop :=
  ∀ (s : State) (w : Half) (i : Instr), s.pc[0] = false → decode w = .ok i →
    step (s.withFetchWord 16 w.toNat) = exec i (beforeExec (s.withFetchWord 16 w.toNat))
      ∧ (s.withFetchWord 16 w.toNat).pc = s.pc
      ∧ ∀ a, a ≠ s.pc.toNat → a ≠ (s.pc + 1#32).toNat →
        Memory.readByte (s.withFetchWord 16 w.toNat).mem a = Memory.readByte s.mem a

/-! ### Encoding -/

/-- Decoding the word of a well-formed instruction gives the instruction back, every field at every
value. -/
def Obligations.DecodeEncodeRoundTrip : Prop :=
  ∀ i : Instr, i.wellFormed = true → decode (encode i) = .ok i

/-- A word that decodes is the word of the instruction it decodes to, and that is well formed: no
bit of a word is dropped, and no two words share an instruction. -/
def Obligations.EncodeOfDecodedWord : Prop :=
  ∀ (w : Half) (i : Instr), decode w = .ok i → encode i = w ∧ i.wellFormed = true

/-- 30_encoding.md R58: a word is a special instruction exactly when I[7:4] = 0001 and I[15] = 0, and
it is then decoded by fn, with the table's conditions on dst and src. The register number of CPUSET
and CPUGET keeps its value; that an undefined one is the opcode table's reserved row is the reading
of log 19. -/
def Obligations.DecodeFollowsOpcodeMap : Prop :=
  ∀ w : Half, ((∃ i, decode w = .ok i) ↔ w.extractLsb' 4 4 = 1#4 ∧ w[15] = false)
    ∧ ∀ (i : Instr) (dst src : RegNum), decode w = .ok i → dst = w.extractLsb' 0 4 →
      src = w.extractLsb' 8 4 →
      (w &&& 0xF0F0#16 = 0x0010#16 →
          (∃ r : CpuReg, r.number = src ∧ i = .cpuset dst r)
            ∨ ∃ x : ExtraReg, x.number = src ∧ i = .cpuUndefined .set dst x)
        ∧ (w &&& 0xF0F0#16 = 0x1010#16 →
          (dst ≠ 0#4 ∧ ∃ r : CpuReg, r.number = src ∧ i = .cpuget dst r)
            ∨ (dst = 0#4 ∧ src ≠ 1#4 ∧ ∃ r : CpuReg, r.number = src ∧ i = .cpugetPc r)
            ∨ (dst = 0#4 ∧ src = 1#4 ∧ i = .rtt)
            ∨ ∃ x : ExtraReg, x.number = src ∧ i = .cpuUndefined .get dst x)
        ∧ (w &&& 0xF0F0#16 = 0x2010#16 → i = .coset dst src)
        ∧ (w &&& 0xF0F0#16 = 0x3010#16 →
          i = if src = 0#4 then .cogetCostat dst else .coget dst src)
        ∧ (w &&& 0xF0F0#16 = 0x4010#16 →
          i = if dst = 0#4 then .reservedPlusDst0 src else .plus dst src)
        ∧ (w &&& 0xF0F0#16 = 0x5010#16 →
          (dst = 0#4 → i = .reservedAdjustDst0 src)
            ∧ (dst ≠ 0#4 → some i =
              [.reservedAdjustSel0 dst, .reservedAdjustSel1 dst, .adjustBcd dst, .adjustEx3 dst,
                .adjustCmsb dst, .adjustSsq dst, .reservedAdjustSel6 dst, .reservedAdjustSel7 dst,
                .adjustPlus1 dst, .adjustPlus2 dst, .adjustPlus4 dst, .adjustPlus8 dst,
                .adjustPlus16 dst, .adjustPlus32 dst, .adjustPlus64 dst,
                .adjustPlus128 dst][src.toNat]?))
        ∧ (w &&& 0xF0F0#16 = 0x6010#16 → i = .undefinedFn6 dst src)
        ∧ (w &&& 0xF0F0#16 = 0x7010#16 → i = .undefinedFn7 dst src)

/-- Words written out from the figures and 95_test_vectors.md decode to their instructions. -/
def Obligations.SampleWordsDecode : Prop :=
  decodeBytes [0x13#8, 0x52#8] = .ok (.adjustBcd 3#4, [])
    ∧ decodeBytes [0x1F#8, 0x5F#8] = .ok (.adjustPlus128 15#4, [])
    ∧ decodeBytes [0x13#8, 0x44#8] = .ok (.plus 3#4 4#4, [])
    ∧ decodeBytes [0x10#8, 0x11#8] = .ok (.rtt, [])
    ∧ decodeBytes [0x13#8, 0x20#8] = .ok (.coset 3#4 0#4, [])
    ∧ decodeBytes [0x14#8, 0x31#8] = .ok (.coget 4#4 1#4, [])
    ∧ decodeBytes [0x15#8, 0x13#8] = .ok (.cpuget 5#4 .tsv, [])
    ∧ decodeBytes [0x12#8, 0x00#8] = .ok (.cpuset 2#4 .psw, [])
    ∧ decodeBytes [0x52#8, 0x13#8] = .error (.opNotSpecial 0x1352#16)

/-! ### Invariants and rules of the whole machine -/

/-- Every step keeps the invariant: memory in canonical form, the parameters within their
constraints, no unimplemented bit of COSTAT set. -/
def Obligations.EveryStepKeepsInvariant : Prop :=
  ∀ s t : State, Inv s → step s = .next t → Inv t

/-- The machine after reset meets the invariant. The parameters and register values at reset that
the spec leaves open are the model's (log 1, log 8). -/
def Obligations.ResetMeetsInvariant : Prop := Inv State.reset

/-- After reset the pc is `RESET_PC` and the level `RESET_LEVEL`, whatever the parameters; their
defaults are 0 (decision D28: log 2). -/
def Obligations.ResetLoadsPcAndLevel : Prop :=
  (∀ p : Params, (State.resetWith p).pc = p.resetPc ∧ (State.resetWith p).psw.level = p.resetLevel
      ∧ (State.resetWith p).cfg = p)
    ∧ State.reset.pc = 0#32 ∧ State.reset.psw.level = 0#4

/-- Only a CPUSET with src = 3 that executes changes TSV, at a privileged level it does so, and CPUGET
with src = 3 then gives what TSV holds, to a general register or, for dst = 0, to the pc (10_state.md
section 5). That srcx = 0 writes 0 is decision D5 (log 27). -/
def Obligations.OnlyCpusetChangesTsv : Prop :=
  (∀ s t : State, step s = .next t → t.tsv = s.tsv
      ∨ ∃ srcx w, fetch s = .word w ∧ decode w = .ok (.cpuset srcx .tsv)
          ∧ s.psw.level ≠ unprivilegedLevel
          ∧ t.tsv = if srcx = 0#4 then 0#32 else s.reg srcx)
    ∧ (∀ (srcx : RegNum) (s : State), s.psw.level ≠ unprivilegedLevel →
      ∃ t, exec (.cpuset srcx .tsv) s = .next t
        ∧ t.tsv = if srcx = 0#4 then 0#32 else s.reg srcx)
    ∧ (∀ (dst : RegNum) (s : State), dst ≠ 0#4 → s.psw.level ≠ unprivilegedLevel →
      ∃ t, exec (.cpuget dst .tsv) s = .next t ∧ t.reg dst = s.tsv)
    ∧ ∀ s : State, s.psw.level ≠ unprivilegedLevel →
      ∃ t, exec (.cpugetPc .tsv) s = .next t ∧ t.pc = s.tsv

/-- N, Z, V and C change only by COGET and by CPUSET of the PSW, of the special instructions and of
all that a step does (10_state.md section 4; that a trap leaves them is 60_exceptions.md section 2:
log 29). -/
def Obligations.OnlyCogetAndCpusetPswWriteNzvc : Prop :=
  (∀ (i : Instr) (s t : State), exec i s = .next t →
      (∀ dst, i ≠ .cogetCostat dst) → (∀ dst src, i ≠ .coget dst src) →
      (∀ srcx, i ≠ .cpuset srcx .psw) →
      t.psw.n = s.psw.n ∧ t.psw.z = s.psw.z ∧ t.psw.v = s.psw.v ∧ t.psw.c = s.psw.c)
    ∧ ∀ s t : State, step s = .next t →
      (t.psw.n = s.psw.n ∧ t.psw.z = s.psw.z ∧ t.psw.v = s.psw.v ∧ t.psw.c = s.psw.c)
        ∨ ∃ w i, fetch s = .word w ∧ decode w = .ok i
          ∧ ((∃ dst, i = .cogetCostat dst) ∨ (∃ dst src, i = .coget dst src)
            ∨ ∃ srcx, i = .cpuset srcx .psw)

/-- The BCD carry field changes only by CPUSET of the PSW, of the special instructions and of all that
a step does (10_state.md section 4; that COGET leaves it alone is decision D25: log 33, and that a
trap does is 60_exceptions.md section 2: log 29). -/
def Obligations.OnlyCpusetPswWritesBcdCarries : Prop :=
  (∀ (i : Instr) (s t : State), exec i s = .next t → (∀ srcx, i ≠ .cpuset srcx .psw) →
      t.psw.bcdc = s.psw.bcdc)
    ∧ ∀ s t : State, step s = .next t → t.psw.bcdc = s.psw.bcdc
      ∨ ∃ w srcx, fetch s = .word w ∧ decode w = .ok (.cpuset srcx .psw)

/-- COSTAT changes only by COSET with src = 0, of the special instructions and of all that a step does
(10_state.md section 6). -/
def Obligations.OnlyCosetWritesCostat : Prop :=
  (∀ (i : Instr) (s t : State), exec i s = .next t → (∀ srcx, i ≠ .coset srcx 0#4) →
      t.costat = s.costat)
    ∧ ∀ s t : State, step s = .next t → t.costat = s.costat
      ∨ ∃ w srcx, fetch s = .word w ∧ decode w = .ok (.coset srcx 0#4)

/-- No step writes memory or changes a parameter of the run (20_memory.md section 3, 10_state.md
section 6; that the parameters ride in the state is the model's: log 3). -/
def Obligations.NoStepWritesMemoryOrParameters : Prop :=
  ∀ s t : State, step s = .next t → t.mem = s.mem ∧ t.cfg = s.cfg

/-- A step at level 1111 either stays at level 1111 and leaves the old level and every privileged
register but CYC as they were, or takes a trap: the level saved, `TRAP_LEVEL` entered, the pc at a
vector (60_exceptions.md section 5; trap entry as the spec decides it: log 29). -/
def Obligations.UnprivilegedCodeOnlyLeavesByTrap : Prop :=
  ∀ s t : State, s.psw.level = 0xF#4 → step s = .next t →
    (t.psw.level = 0xF#4 ∧ t.psw.oldLevel = s.psw.oldLevel ∧ t.tpc = s.tpc ∧ t.tma = s.tma
        ∧ t.tsv = s.tsv ∧ t.mmu = s.mmu ∧ t.extra = s.extra)
      ∨ ∃ c, t.pc = trapVector s.cfg.trapVector c ∧ t.psw.level = s.cfg.trapLevel
        ∧ t.psw.oldLevel = 0xF#4 ∧ t.tpc = s.pc + pcOffsetBytes s.cfg.tpcOffset
        ∧ t.tsv = s.tsv ∧ t.mmu = s.mmu ∧ t.extra = s.extra ∧ SameRegs s t

/-- COGET and COSET, of COSTAT too, have a next state at every level, where `COGET_DST0` does not
refuse dst = 0 (43_coprocessor.md section 4; log 18); and ADJUST, PLUS, COGET and COSET execute alike
at every level (60_exceptions.md section 5): two states that differ in the two level fields alone give
next states that agree in all but those two fields. That a COGET which waits completes in its step is
the model's choice (log 10). -/
def Obligations.OtherInstructionsAreLevelBlind : Prop :=
  (∀ (f src : RegNum) (s : State), (∃ t, exec (.coset f src) s = .next t)
      ∧ (f ≠ 0#4 ∨ s.cfg.cogetDst0 = .discard →
        (∃ t, exec (.cogetCostat f) s = .next t) ∧ ∃ t, exec (.coget f src) s = .next t))
    ∧ ∀ (i : Instr) (s t : State) (l o : Level), exec i s = .next t →
      (∀ r x, i ≠ .cpuset r x) → (∀ r x, i ≠ .cpuget r x) → (∀ x, i ≠ .cpugetPc x) → i ≠ .rtt →
      (∀ a r x, i ≠ .cpuUndefined a r x) →
      ∃ t', exec i { s with psw := { s.psw with level := l, oldLevel := o } } = .next t'
        ∧ t'.pc = t.pc ∧ t'.gpr = t.gpr ∧ t'.costat = t.costat ∧ t'.co = t.co
        ∧ t'.psw.n = t.psw.n ∧ t'.psw.z = t.psw.z ∧ t'.psw.v = t.psw.v ∧ t'.psw.c = t.psw.c
        ∧ t'.psw.bcdc = t.psw.bcdc ∧ t'.tpc = t.tpc ∧ t'.tma = t.tma ∧ t'.tsv = t.tsv
        ∧ t'.cyc = t.cyc ∧ t'.mmu = t.mmu ∧ t'.extra = t.extra ∧ t'.mem = t.mem
        ∧ t'.cfg = t.cfg
end

