-- ==== Sys2Proof/Laws/Decode.lean ====
section
/-! SUPPORT. The fields of an assembled word, and the numbers of the special registers. -/

namespace Sys2Proof

@[simp] theorem opField_assemble (fn : BitVec 4) (dst src : RegNum) :
    opField (assemble fn dst src) = 1#4 := by
  apply BitVec.eq_of_getLsbD_eq
  intro i hi
  simp only [opField, assemble, BitVec.getLsbD_extractLsb', BitVec.getLsbD_or,
    BitVec.getLsbD_shiftLeft, BitVec.getLsbD_setWidth]
  interval_cases i <;> simp [BitVec.getLsbD_of_ge]

@[simp] theorem dstField_assemble (fn : BitVec 4) (dst src : RegNum) :
    dstField (assemble fn dst src) = dst := by
  apply BitVec.eq_of_getLsbD_eq
  intro i hi
  simp only [dstField, assemble, BitVec.getLsbD_extractLsb', BitVec.getLsbD_or,
    BitVec.getLsbD_shiftLeft, BitVec.getLsbD_setWidth]
  interval_cases i <;> simp

@[simp] theorem srcField_assemble (fn : BitVec 4) (dst src : RegNum) :
    srcField (assemble fn dst src) = src := by
  apply BitVec.eq_of_getLsbD_eq
  intro i hi
  simp only [srcField, assemble, BitVec.getLsbD_extractLsb', BitVec.getLsbD_or,
    BitVec.getLsbD_shiftLeft, BitVec.getLsbD_setWidth]
  interval_cases i <;> simp [BitVec.getLsbD_of_ge]

@[simp] theorem fnField_assemble (fn : BitVec 4) (dst src : RegNum) :
    fnField (assemble fn dst src) = fn := by
  apply BitVec.eq_of_getLsbD_eq
  intro i hi
  simp only [fnField, assemble, BitVec.getLsbD_extractLsb', BitVec.getLsbD_or,
    BitVec.getLsbD_shiftLeft, BitVec.getLsbD_setWidth]
  interval_cases i <;> simp [BitVec.getLsbD_of_ge]

/-- A word is assembled from its fields exactly when its opcode nibble is 0001. -/
theorem assemble_fields (w : Half) (h : opField w = 1#4) :
    assemble (fnField w) (dstField w) (srcField w) = w := by
  have hop : ∀ j < 4, w.getLsbD (4 + j) = (1#4).getLsbD j := by
    intro j hj
    have := congrArg (fun v : BitVec 4 => v.getLsbD j) h
    simpa [opField, BitVec.getLsbD_extractLsb', hj] using this
  have h0 := hop 0 (by omega)
  have h1 := hop 1 (by omega)
  have h2 := hop 2 (by omega)
  have h3 := hop 3 (by omega)
  apply BitVec.eq_of_getLsbD_eq
  intro i hi
  simp only [fnField, dstField, srcField, assemble, BitVec.getLsbD_extractLsb', BitVec.getLsbD_or,
    BitVec.getLsbD_shiftLeft, BitVec.getLsbD_setWidth]
  interval_cases i <;> simp_all

end Sys2Proof
end

