-- ==== Sys2Proof/Laws/Memory.lean ====
section
/-! SUPPORT. Main memory: reading after writing, and the canonical form. -/

namespace Sys2Proof.Machine

theorem readByte_writeByte_same (m : Memory) (x : Nat) (v : Byte) :
    Memory.readByte (Memory.writeByte m x v) x = some v := by
  induction m with
  | nil => simp [Memory.writeByte, Memory.readByte]
  | cons c m ih =>
    obtain ⟨a, b⟩ := c
    simp only [Memory.writeByte]
    split
    · simp [Memory.readByte]
    · split
      · simp [Memory.readByte]
      · rename_i h
        simp [Memory.readByte, h, ih]

theorem readByte_writeByte_other (m : Memory) (x y : Nat) (v : Byte) (h : y ≠ x) :
    Memory.readByte (Memory.writeByte m x v) y = Memory.readByte m y := by
  induction m with
  | nil => simp [Memory.writeByte, Memory.readByte, h]
  | cons c m ih =>
    obtain ⟨a, b⟩ := c
    simp only [Memory.writeByte]
    split
    · simp [Memory.readByte, h]
    · split
      · rename_i hxa
        subst hxa
        simp [Memory.readByte, h]
      · simp [Memory.readByte, ih]

theorem risingFrom_mono (m : Memory) (lo lo' : Nat) (h : lo' ≤ lo)
    (hm : Memory.risingFrom lo m = true) : Memory.risingFrom lo' m = true := by
  cases m with
  | nil => rfl
  | cons c m =>
    obtain ⟨a, b⟩ := c
    simp only [Memory.risingFrom, Bool.and_eq_true, decide_eq_true_eq] at hm ⊢
    exact ⟨⟨by omega, hm.1.2⟩, hm.2⟩

theorem risingFrom_writeByte (m : Memory) (lo x : Nat) (v : Byte) (hlo : lo ≤ x)
    (hx : x < 2 ^ 32) (hm : Memory.risingFrom lo m = true) :
    Memory.risingFrom lo (Memory.writeByte m x v) = true := by
  induction m generalizing lo with
  | nil => simp [Memory.writeByte, Memory.risingFrom, hlo]; omega
  | cons c m ih =>
    obtain ⟨a, b⟩ := c
    simp only [Memory.risingFrom, Bool.and_eq_true, decide_eq_true_eq] at hm
    simp only [Memory.writeByte]
    split
    · simp only [Memory.risingFrom, Bool.and_eq_true, decide_eq_true_eq]
      exact ⟨⟨hlo, hx⟩, ⟨by omega, hm.1.2⟩, hm.2⟩
    · split
      · rename_i hxa
        subst hxa
        simp only [Memory.risingFrom, Bool.and_eq_true, decide_eq_true_eq]
        exact ⟨⟨hlo, hx⟩, hm.2⟩
      · simp only [Memory.risingFrom, Bool.and_eq_true, decide_eq_true_eq]
        exact ⟨hm.1, ih (a + 1) (by omega) hm.2⟩

/-- A byte write at a 32-bit address keeps the canonical form. -/
theorem wf_writeByte (m : Memory) (x : Nat) (v : Byte) (hx : x < 2 ^ 32)
    (hm : Memory.wf m = true) : Memory.wf (Memory.writeByte m x v) = true :=
  risingFrom_writeByte m 0 x v (Nat.zero_le x) hx hm

/-- A store keeps the canonical form. -/
theorem wf_write (n : Nat) (m : Memory) (addr : Word) (v : Nat) (hm : Memory.wf m = true) :
    Memory.wf (Memory.write m addr n v) = true := by
  induction n generalizing m addr v with
  | zero => exact hm
  | succ n ih => exact ih _ _ _ (wf_writeByte m _ _ addr.isLt hm)

/-- Two canonical memories that read alike from `lo` on are equal. -/
theorem risingFrom_ext (m m' : Memory) (lo : Nat) (hm : Memory.risingFrom lo m = true)
    (hm' : Memory.risingFrom lo m' = true)
    (h : ∀ x, Memory.readByte m x = Memory.readByte m' x) : m = m' := by
  have below : ∀ (m : Memory) (lo : Nat), Memory.risingFrom lo m = true →
      ∀ x < lo, Memory.readByte m x = none := by
    intro m
    induction m with
    | nil => intros; rfl
    | cons c m ih =>
      obtain ⟨a, b⟩ := c
      intro lo hm x hx
      simp only [Memory.risingFrom, Bool.and_eq_true, decide_eq_true_eq] at hm
      have hne : x ≠ a := by omega
      simp [Memory.readByte, hne, ih (a + 1) hm.2 x (by omega)]
  induction m generalizing m' lo with
  | nil =>
    cases m' with
    | nil => rfl
    | cons c m' =>
      obtain ⟨a, b⟩ := c
      have := h a
      simp [Memory.readByte] at this
  | cons c m ih =>
    obtain ⟨a, b⟩ := c
    cases m' with
    | nil =>
      have := h a
      simp [Memory.readByte] at this
    | cons c' m' =>
      obtain ⟨a', b'⟩ := c'
      have hm0 := hm
      have hm0' := hm'
      simp only [Memory.risingFrom, Bool.and_eq_true, decide_eq_true_eq] at hm hm'
      have hab : a = a' := by
        have ha := h a
        have ha' := h a'
        simp only [Memory.readByte, if_true] at ha ha'
        rcases Nat.lt_trichotomy a a' with hlt | heq | hgt
        · have hne : a ≠ a' := by omega
          rw [if_neg hne, below m' (a' + 1) hm'.2 a (by omega)] at ha
          cases ha
        · exact heq
        · have hne : a' ≠ a := by omega
          rw [if_neg hne, below m (a + 1) hm.2 a' (by omega)] at ha'
          cases ha'
      subst hab
      have hb : b = b' := by
        have ha := h a
        simpa [Memory.readByte] using ha
      subst hb
      congr 1
      refine ih m' (a + 1) hm.2 hm'.2 (fun x => ?_)
      by_cases hx : x = a
      · subst hx
        rw [below m (x + 1) hm.2 x (by omega), below m' (x + 1) hm'.2 x (by omega)]
      · have := h x
        simpa [Memory.readByte, hx] using this

/-- Equal memories are equal data: two canonical memories that read alike are equal. -/
theorem wf_ext (m m' : Memory) (hm : Memory.wf m = true) (hm' : Memory.wf m' = true)
    (h : ∀ x, Memory.readByte m x = Memory.readByte m' x) : m = m' :=
  risingFrom_ext m m' 0 hm hm' h

/-- Memory at reset has the canonical form. -/
theorem reset_mem_wf : Memory.wf State.reset.mem = true := rfl

end Sys2Proof.Machine
end

