-- ==== Sys2Proof/Laws/State.lean ====
section
/-! SUPPORT. Each field of the state after each update: no later proof unfolds a record update. -/

namespace Sys2Proof.Machine

@[simp] theorem setReg_cfg (s : State) (i : RegNum) (v : Word) : (s.setReg i v).cfg = s.cfg := rfl
@[simp] theorem setReg_pc (s : State) (i : RegNum) (v : Word) : (s.setReg i v).pc = s.pc := rfl
@[simp] theorem setReg_psw (s : State) (i : RegNum) (v : Word) : (s.setReg i v).psw = s.psw := rfl
@[simp] theorem setReg_tpc (s : State) (i : RegNum) (v : Word) : (s.setReg i v).tpc = s.tpc := rfl
@[simp] theorem setReg_tma (s : State) (i : RegNum) (v : Word) : (s.setReg i v).tma = s.tma := rfl
@[simp] theorem setReg_tsv (s : State) (i : RegNum) (v : Word) : (s.setReg i v).tsv = s.tsv := rfl
@[simp] theorem setReg_cyc (s : State) (i : RegNum) (v : Word) : (s.setReg i v).cyc = s.cyc := rfl
@[simp] theorem setReg_mmu (s : State) (i : RegNum) (v : Word) : (s.setReg i v).mmu = s.mmu := rfl
@[simp] theorem setReg_extra (s : State) (i : RegNum) (v : Word) : (s.setReg i v).extra = s.extra := rfl
@[simp] theorem setReg_costat (s : State) (i : RegNum) (v : Word) : (s.setReg i v).costat = s.costat := rfl
@[simp] theorem setReg_co (s : State) (i : RegNum) (v : Word) : (s.setReg i v).co = s.co := rfl
@[simp] theorem setReg_mem (s : State) (i : RegNum) (v : Word) : (s.setReg i v).mem = s.mem := rfl
@[simp] theorem setReg_draws (s : State) (i : RegNum) (v : Word) : (s.setReg i v).draws = s.draws := rfl

@[simp] theorem advance_cfg (s : State) : s.advance.cfg = s.cfg := rfl
@[simp] theorem advance_gpr (s : State) : s.advance.gpr = s.gpr := rfl
@[simp] theorem advance_pc (s : State) : s.advance.pc = s.pc + 2#32 := rfl
@[simp] theorem advance_psw (s : State) : s.advance.psw = s.psw := rfl
@[simp] theorem advance_tpc (s : State) : s.advance.tpc = s.tpc := rfl
@[simp] theorem advance_tma (s : State) : s.advance.tma = s.tma := rfl
@[simp] theorem advance_tsv (s : State) : s.advance.tsv = s.tsv := rfl
@[simp] theorem advance_cyc (s : State) : s.advance.cyc = s.cyc := rfl
@[simp] theorem advance_mmu (s : State) : s.advance.mmu = s.mmu := rfl
@[simp] theorem advance_extra (s : State) : s.advance.extra = s.extra := rfl
@[simp] theorem advance_costat (s : State) : s.advance.costat = s.costat := rfl
@[simp] theorem advance_co (s : State) : s.advance.co = s.co := rfl
@[simp] theorem advance_mem (s : State) : s.advance.mem = s.mem := rfl
@[simp] theorem advance_draws (s : State) : s.advance.draws = s.draws := rfl
@[simp] theorem advance_reg (s : State) (r : RegNum) : s.advance.reg r = s.reg r := rfl

@[simp] theorem setNzvc_cfg (s : State) (f : Config.Nzvc) : (s.setNzvc f).cfg = s.cfg := rfl
@[simp] theorem setNzvc_gpr (s : State) (f : Config.Nzvc) : (s.setNzvc f).gpr = s.gpr := rfl
@[simp] theorem setNzvc_pc (s : State) (f : Config.Nzvc) : (s.setNzvc f).pc = s.pc := rfl
@[simp] theorem setNzvc_psw (s : State) (f : Config.Nzvc) : (s.setNzvc f).psw = { s.psw with n := f.n, z := f.z, v := f.v, c := f.c } := rfl
@[simp] theorem setNzvc_tpc (s : State) (f : Config.Nzvc) : (s.setNzvc f).tpc = s.tpc := rfl
@[simp] theorem setNzvc_tma (s : State) (f : Config.Nzvc) : (s.setNzvc f).tma = s.tma := rfl
@[simp] theorem setNzvc_tsv (s : State) (f : Config.Nzvc) : (s.setNzvc f).tsv = s.tsv := rfl
@[simp] theorem setNzvc_cyc (s : State) (f : Config.Nzvc) : (s.setNzvc f).cyc = s.cyc := rfl
@[simp] theorem setNzvc_mmu (s : State) (f : Config.Nzvc) : (s.setNzvc f).mmu = s.mmu := rfl
@[simp] theorem setNzvc_extra (s : State) (f : Config.Nzvc) : (s.setNzvc f).extra = s.extra := rfl
@[simp] theorem setNzvc_costat (s : State) (f : Config.Nzvc) : (s.setNzvc f).costat = s.costat := rfl
@[simp] theorem setNzvc_co (s : State) (f : Config.Nzvc) : (s.setNzvc f).co = s.co := rfl
@[simp] theorem setNzvc_mem (s : State) (f : Config.Nzvc) : (s.setNzvc f).mem = s.mem := rfl
@[simp] theorem setNzvc_draws (s : State) (f : Config.Nzvc) : (s.setNzvc f).draws = s.draws := rfl
@[simp] theorem setNzvc_reg (s : State) (f : Config.Nzvc) (r : RegNum) : (s.setNzvc f).reg r = s.reg r := rfl

@[simp] theorem restoreLevel_cfg (s : State) : s.restoreLevel.cfg = s.cfg := rfl
@[simp] theorem restoreLevel_gpr (s : State) : s.restoreLevel.gpr = s.gpr := rfl
@[simp] theorem restoreLevel_pc (s : State) : s.restoreLevel.pc = s.pc := rfl
@[simp] theorem restoreLevel_psw (s : State) : s.restoreLevel.psw = { s.psw with level := s.psw.oldLevel } := rfl
@[simp] theorem restoreLevel_tpc (s : State) : s.restoreLevel.tpc = s.tpc := rfl
@[simp] theorem restoreLevel_tma (s : State) : s.restoreLevel.tma = s.tma := rfl
@[simp] theorem restoreLevel_tsv (s : State) : s.restoreLevel.tsv = s.tsv := rfl
@[simp] theorem restoreLevel_cyc (s : State) : s.restoreLevel.cyc = s.cyc := rfl
@[simp] theorem restoreLevel_mmu (s : State) : s.restoreLevel.mmu = s.mmu := rfl
@[simp] theorem restoreLevel_extra (s : State) : s.restoreLevel.extra = s.extra := rfl
@[simp] theorem restoreLevel_costat (s : State) : s.restoreLevel.costat = s.costat := rfl
@[simp] theorem restoreLevel_co (s : State) : s.restoreLevel.co = s.co := rfl
@[simp] theorem restoreLevel_mem (s : State) : s.restoreLevel.mem = s.mem := rfl
@[simp] theorem restoreLevel_draws (s : State) : s.restoreLevel.draws = s.draws := rfl
@[simp] theorem restoreLevel_reg (s : State) (r : RegNum) : s.restoreLevel.reg r = s.reg r := rfl

@[simp] theorem returnTo_cfg (s : State) (a : Word) : (returnTo s a).cfg = s.cfg := rfl
@[simp] theorem returnTo_gpr (s : State) (a : Word) : (returnTo s a).gpr = s.gpr := rfl
@[simp] theorem returnTo_pc (s : State) (a : Word) : (returnTo s a).pc = a := rfl
@[simp] theorem returnTo_psw (s : State) (a : Word) : (returnTo s a).psw = { s.psw with level := s.psw.oldLevel } := rfl
@[simp] theorem returnTo_tpc (s : State) (a : Word) : (returnTo s a).tpc = s.tpc := rfl
@[simp] theorem returnTo_tma (s : State) (a : Word) : (returnTo s a).tma = s.tma := rfl
@[simp] theorem returnTo_tsv (s : State) (a : Word) : (returnTo s a).tsv = s.tsv := rfl
@[simp] theorem returnTo_cyc (s : State) (a : Word) : (returnTo s a).cyc = s.cyc := rfl
@[simp] theorem returnTo_mmu (s : State) (a : Word) : (returnTo s a).mmu = s.mmu := rfl
@[simp] theorem returnTo_extra (s : State) (a : Word) : (returnTo s a).extra = s.extra := rfl
@[simp] theorem returnTo_costat (s : State) (a : Word) : (returnTo s a).costat = s.costat := rfl
@[simp] theorem returnTo_co (s : State) (a : Word) : (returnTo s a).co = s.co := rfl
@[simp] theorem returnTo_mem (s : State) (a : Word) : (returnTo s a).mem = s.mem := rfl
@[simp] theorem returnTo_draws (s : State) (a : Word) : (returnTo s a).draws = s.draws := rfl
@[simp] theorem returnTo_reg (s : State) (a : Word) (r : RegNum) : (returnTo s a).reg r = s.reg r := rfl

@[simp] theorem takeTrap_cfg (s : State) (t : Trap) : (takeTrap s t).cfg = s.cfg := rfl
@[simp] theorem takeTrap_gpr (s : State) (t : Trap) : (takeTrap s t).gpr = s.gpr := rfl
@[simp] theorem takeTrap_pc (s : State) (t : Trap) : (takeTrap s t).pc = trapVector s.cfg.trapVector t := rfl
@[simp] theorem takeTrap_psw (s : State) (t : Trap) : (takeTrap s t).psw = { s.psw with oldLevel := s.psw.level, level := s.cfg.trapLevel } := rfl
@[simp] theorem takeTrap_tpc (s : State) (t : Trap) : (takeTrap s t).tpc = s.pc + pcOffsetBytes s.cfg.tpcOffset := rfl
@[simp] theorem takeTrap_tma (s : State) (t : Trap) : (takeTrap s t).tma = trapTma s.draws t := rfl
@[simp] theorem takeTrap_tsv (s : State) (t : Trap) : (takeTrap s t).tsv = s.tsv := rfl
@[simp] theorem takeTrap_cyc (s : State) (t : Trap) : (takeTrap s t).cyc = s.cyc := rfl
@[simp] theorem takeTrap_mmu (s : State) (t : Trap) : (takeTrap s t).mmu = s.mmu := rfl
@[simp] theorem takeTrap_extra (s : State) (t : Trap) : (takeTrap s t).extra = s.extra := rfl
@[simp] theorem takeTrap_costat (s : State) (t : Trap) : (takeTrap s t).costat = s.costat := rfl
@[simp] theorem takeTrap_co (s : State) (t : Trap) : (takeTrap s t).co = s.co := rfl
@[simp] theorem takeTrap_mem (s : State) (t : Trap) : (takeTrap s t).mem = s.mem := rfl
@[simp] theorem takeTrap_draws (s : State) (t : Trap) : (takeTrap s t).draws = s.draws + 1 := rfl
@[simp] theorem takeTrap_reg (s : State) (t : Trap) (r : RegNum) : (takeTrap s t).reg r = s.reg r := rfl

@[simp] theorem setExtraCell_cfg (s : State) (r : Config.ExtraReg) (v : Word) : (s.setExtraCell r v).cfg = s.cfg := rfl
@[simp] theorem setExtraCell_gpr (s : State) (r : Config.ExtraReg) (v : Word) : (s.setExtraCell r v).gpr = s.gpr := rfl
@[simp] theorem setExtraCell_pc (s : State) (r : Config.ExtraReg) (v : Word) : (s.setExtraCell r v).pc = s.pc := rfl
@[simp] theorem setExtraCell_psw (s : State) (r : Config.ExtraReg) (v : Word) : (s.setExtraCell r v).psw = s.psw := rfl
@[simp] theorem setExtraCell_tpc (s : State) (r : Config.ExtraReg) (v : Word) : (s.setExtraCell r v).tpc = s.tpc := rfl
@[simp] theorem setExtraCell_tma (s : State) (r : Config.ExtraReg) (v : Word) : (s.setExtraCell r v).tma = s.tma := rfl
@[simp] theorem setExtraCell_tsv (s : State) (r : Config.ExtraReg) (v : Word) : (s.setExtraCell r v).tsv = s.tsv := rfl
@[simp] theorem setExtraCell_cyc (s : State) (r : Config.ExtraReg) (v : Word) : (s.setExtraCell r v).cyc = s.cyc := rfl
@[simp] theorem setExtraCell_costat (s : State) (r : Config.ExtraReg) (v : Word) : (s.setExtraCell r v).costat = s.costat := rfl
@[simp] theorem setExtraCell_co (s : State) (r : Config.ExtraReg) (v : Word) : (s.setExtraCell r v).co = s.co := rfl
@[simp] theorem setExtraCell_mem (s : State) (r : Config.ExtraReg) (v : Word) : (s.setExtraCell r v).mem = s.mem := rfl
@[simp] theorem setExtraCell_draws (s : State) (r : Config.ExtraReg) (v : Word) : (s.setExtraCell r v).draws = s.draws := rfl
@[simp] theorem setExtraCell_reg (s : State) (r : Config.ExtraReg) (v : Word) (i : RegNum) : (s.setExtraCell r v).reg i = s.reg i := rfl

@[simp] theorem extraCpuWrite_cfg (s : State) (r : Config.ExtraReg) (v : Word) : (extraCpuWrite s r v).cfg = s.cfg := rfl
@[simp] theorem extraCpuWrite_gpr (s : State) (r : Config.ExtraReg) (v : Word) : (extraCpuWrite s r v).gpr = s.gpr := rfl
@[simp] theorem extraCpuWrite_pc (s : State) (r : Config.ExtraReg) (v : Word) : (extraCpuWrite s r v).pc = s.pc := rfl
@[simp] theorem extraCpuWrite_psw (s : State) (r : Config.ExtraReg) (v : Word) : (extraCpuWrite s r v).psw = s.psw := rfl
@[simp] theorem extraCpuWrite_tpc (s : State) (r : Config.ExtraReg) (v : Word) : (extraCpuWrite s r v).tpc = s.tpc := rfl
@[simp] theorem extraCpuWrite_tma (s : State) (r : Config.ExtraReg) (v : Word) : (extraCpuWrite s r v).tma = s.tma := rfl
@[simp] theorem extraCpuWrite_tsv (s : State) (r : Config.ExtraReg) (v : Word) : (extraCpuWrite s r v).tsv = s.tsv := rfl
@[simp] theorem extraCpuWrite_cyc (s : State) (r : Config.ExtraReg) (v : Word) : (extraCpuWrite s r v).cyc = s.cyc := rfl
@[simp] theorem extraCpuWrite_costat (s : State) (r : Config.ExtraReg) (v : Word) : (extraCpuWrite s r v).costat = s.costat := rfl
@[simp] theorem extraCpuWrite_co (s : State) (r : Config.ExtraReg) (v : Word) : (extraCpuWrite s r v).co = s.co := rfl
@[simp] theorem extraCpuWrite_mem (s : State) (r : Config.ExtraReg) (v : Word) : (extraCpuWrite s r v).mem = s.mem := rfl
@[simp] theorem extraCpuWrite_draws (s : State) (r : Config.ExtraReg) (v : Word) : (extraCpuWrite s r v).draws = s.draws := rfl
@[simp] theorem extraCpuWrite_reg (s : State) (r : Config.ExtraReg) (v : Word) (i : RegNum) : (extraCpuWrite s r v).reg i = s.reg i := rfl

@[simp] theorem setCostat_cfg (s : State) (v : Word) : (setCostat s v).cfg = s.cfg := rfl
@[simp] theorem setCostat_gpr (s : State) (v : Word) : (setCostat s v).gpr = s.gpr := rfl
@[simp] theorem setCostat_pc (s : State) (v : Word) : (setCostat s v).pc = s.pc := rfl
@[simp] theorem setCostat_psw (s : State) (v : Word) : (setCostat s v).psw = s.psw := rfl
@[simp] theorem setCostat_tpc (s : State) (v : Word) : (setCostat s v).tpc = s.tpc := rfl
@[simp] theorem setCostat_tma (s : State) (v : Word) : (setCostat s v).tma = s.tma := rfl
@[simp] theorem setCostat_tsv (s : State) (v : Word) : (setCostat s v).tsv = s.tsv := rfl
@[simp] theorem setCostat_cyc (s : State) (v : Word) : (setCostat s v).cyc = s.cyc := rfl
@[simp] theorem setCostat_mmu (s : State) (v : Word) : (setCostat s v).mmu = s.mmu := rfl
@[simp] theorem setCostat_extra (s : State) (v : Word) : (setCostat s v).extra = s.extra := rfl
@[simp] theorem setCostat_costat (s : State) (v : Word) : (setCostat s v).costat = v &&& s.cfg.costatLayout.implMask := rfl
@[simp] theorem setCostat_co (s : State) (v : Word) : (setCostat s v).co = coAfterCostat s (v &&& s.cfg.costatLayout.implMask) := rfl
@[simp] theorem setCostat_mem (s : State) (v : Word) : (setCostat s v).mem = s.mem := rfl
@[simp] theorem setCostat_draws (s : State) (v : Word) : (setCostat s v).draws = s.draws + 1 := rfl
@[simp] theorem setCostat_reg (s : State) (v : Word) (r : RegNum) : (setCostat s v).reg r = s.reg r := rfl

@[simp] theorem setCo_cfg (s : State) (k : Config.CoId) (c : Config.CoState) : (s.setCo k c).cfg = s.cfg := rfl
@[simp] theorem setCo_gpr (s : State) (k : Config.CoId) (c : Config.CoState) : (s.setCo k c).gpr = s.gpr := rfl
@[simp] theorem setCo_pc (s : State) (k : Config.CoId) (c : Config.CoState) : (s.setCo k c).pc = s.pc := rfl
@[simp] theorem setCo_psw (s : State) (k : Config.CoId) (c : Config.CoState) : (s.setCo k c).psw = s.psw := rfl
@[simp] theorem setCo_tpc (s : State) (k : Config.CoId) (c : Config.CoState) : (s.setCo k c).tpc = s.tpc := rfl
@[simp] theorem setCo_tma (s : State) (k : Config.CoId) (c : Config.CoState) : (s.setCo k c).tma = s.tma := rfl
@[simp] theorem setCo_tsv (s : State) (k : Config.CoId) (c : Config.CoState) : (s.setCo k c).tsv = s.tsv := rfl
@[simp] theorem setCo_cyc (s : State) (k : Config.CoId) (c : Config.CoState) : (s.setCo k c).cyc = s.cyc := rfl
@[simp] theorem setCo_mmu (s : State) (k : Config.CoId) (c : Config.CoState) : (s.setCo k c).mmu = s.mmu := rfl
@[simp] theorem setCo_extra (s : State) (k : Config.CoId) (c : Config.CoState) : (s.setCo k c).extra = s.extra := rfl
@[simp] theorem setCo_costat (s : State) (k : Config.CoId) (c : Config.CoState) : (s.setCo k c).costat = s.costat := rfl
@[simp] theorem setCo_co (s : State) (k : Config.CoId) (c : Config.CoState) : (s.setCo k c).co = s.co.set k.val c := rfl
@[simp] theorem setCo_mem (s : State) (k : Config.CoId) (c : Config.CoState) : (s.setCo k c).mem = s.mem := rfl
@[simp] theorem setCo_draws (s : State) (k : Config.CoId) (c : Config.CoState) : (s.setCo k c).draws = s.draws := rfl
@[simp] theorem setCo_reg (s : State) (k : Config.CoId) (c : Config.CoState) (r : RegNum) : (s.setCo k c).reg r = s.reg r := rfl

@[simp] theorem countFetch_cfg (s : State) : (countFetch s).cfg = s.cfg := rfl
@[simp] theorem countFetch_gpr (s : State) : (countFetch s).gpr = s.gpr := rfl
@[simp] theorem countFetch_pc (s : State) : (countFetch s).pc = s.pc := rfl
@[simp] theorem countFetch_psw (s : State) : (countFetch s).psw = s.psw := rfl
@[simp] theorem countFetch_tpc (s : State) : (countFetch s).tpc = s.tpc := rfl
@[simp] theorem countFetch_tma (s : State) : (countFetch s).tma = s.tma := rfl
@[simp] theorem countFetch_tsv (s : State) : (countFetch s).tsv = s.tsv := rfl
@[simp] theorem countFetch_cyc (s : State) : (countFetch s).cyc = Config.cycAfterFetch s.cyc s.draws := rfl
@[simp] theorem countFetch_mmu (s : State) : (countFetch s).mmu = s.mmu := rfl
@[simp] theorem countFetch_extra (s : State) : (countFetch s).extra = s.extra := rfl
@[simp] theorem countFetch_costat (s : State) : (countFetch s).costat = s.costat := rfl
@[simp] theorem countFetch_co (s : State) : (countFetch s).co = s.co := rfl
@[simp] theorem countFetch_mem (s : State) : (countFetch s).mem = s.mem := rfl
@[simp] theorem countFetch_draws (s : State) : (countFetch s).draws = s.draws + 1 := rfl
@[simp] theorem countFetch_reg (s : State) (r : RegNum) : (countFetch s).reg r = s.reg r := rfl

@[simp] theorem runCoprocessors_cfg (s : State) : (runCoprocessors s).cfg = s.cfg := rfl
@[simp] theorem runCoprocessors_gpr (s : State) : (runCoprocessors s).gpr = s.gpr := rfl
@[simp] theorem runCoprocessors_pc (s : State) : (runCoprocessors s).pc = s.pc := rfl
@[simp] theorem runCoprocessors_psw (s : State) : (runCoprocessors s).psw = s.psw := rfl
@[simp] theorem runCoprocessors_tpc (s : State) : (runCoprocessors s).tpc = s.tpc := rfl
@[simp] theorem runCoprocessors_tma (s : State) : (runCoprocessors s).tma = s.tma := rfl
@[simp] theorem runCoprocessors_tsv (s : State) : (runCoprocessors s).tsv = s.tsv := rfl
@[simp] theorem runCoprocessors_cyc (s : State) : (runCoprocessors s).cyc = s.cyc := rfl
@[simp] theorem runCoprocessors_mmu (s : State) : (runCoprocessors s).mmu = s.mmu := rfl
@[simp] theorem runCoprocessors_extra (s : State) : (runCoprocessors s).extra = s.extra := rfl
@[simp] theorem runCoprocessors_costat (s : State) : (runCoprocessors s).costat = s.costat := rfl
@[simp] theorem runCoprocessors_mem (s : State) : (runCoprocessors s).mem = s.mem := rfl
@[simp] theorem runCoprocessors_draws (s : State) : (runCoprocessors s).draws = s.draws + 1 := rfl
@[simp] theorem runCoprocessors_reg (s : State) (r : RegNum) : (runCoprocessors s).reg r = s.reg r := rfl

@[simp] theorem beforeExec_cfg (s : State) : (beforeExec s).cfg = s.cfg := rfl
@[simp] theorem beforeExec_gpr (s : State) : (beforeExec s).gpr = s.gpr := rfl
@[simp] theorem beforeExec_pc (s : State) : (beforeExec s).pc = s.pc := rfl
@[simp] theorem beforeExec_psw (s : State) : (beforeExec s).psw = s.psw := rfl
@[simp] theorem beforeExec_tpc (s : State) : (beforeExec s).tpc = s.tpc := rfl
@[simp] theorem beforeExec_tma (s : State) : (beforeExec s).tma = s.tma := rfl
@[simp] theorem beforeExec_tsv (s : State) : (beforeExec s).tsv = s.tsv := rfl
@[simp] theorem beforeExec_cyc (s : State) : (beforeExec s).cyc = Config.cycAfterFetch s.cyc (s.draws + 1) := rfl
@[simp] theorem beforeExec_mmu (s : State) : (beforeExec s).mmu = s.mmu := rfl
@[simp] theorem beforeExec_extra (s : State) : (beforeExec s).extra = s.extra := rfl
@[simp] theorem beforeExec_costat (s : State) : (beforeExec s).costat = s.costat := rfl
@[simp] theorem beforeExec_co (s : State) : (beforeExec s).co = (runCoprocessors s).co := rfl
@[simp] theorem beforeExec_mem (s : State) : (beforeExec s).mem = s.mem := rfl
@[simp] theorem beforeExec_draws (s : State) : (beforeExec s).draws = s.draws + 2 := rfl
@[simp] theorem beforeExec_reg (s : State) (r : RegNum) : (beforeExec s).reg r = s.reg r := rfl

@[simp] theorem cpuWrite_cfg (s : State) (r : CpuReg) (v : Word) : (cpuWrite s r v).cfg = s.cfg := by
  cases r <;> rfl
@[simp] theorem cpuWrite_gpr (s : State) (r : CpuReg) (v : Word) : (cpuWrite s r v).gpr = s.gpr := by
  cases r <;> rfl
@[simp] theorem cpuWrite_pc (s : State) (r : CpuReg) (v : Word) : (cpuWrite s r v).pc = s.pc := by
  cases r <;> rfl
@[simp] theorem cpuWrite_mmu (s : State) (r : CpuReg) (v : Word) : (cpuWrite s r v).mmu = s.mmu := by
  cases r <;> rfl
@[simp] theorem cpuWrite_extra (s : State) (r : CpuReg) (v : Word) : (cpuWrite s r v).extra = s.extra := by
  cases r <;> rfl
@[simp] theorem cpuWrite_costat (s : State) (r : CpuReg) (v : Word) : (cpuWrite s r v).costat = s.costat := by
  cases r <;> rfl
@[simp] theorem cpuWrite_co (s : State) (r : CpuReg) (v : Word) : (cpuWrite s r v).co = s.co := by
  cases r <;> rfl
@[simp] theorem cpuWrite_mem (s : State) (r : CpuReg) (v : Word) : (cpuWrite s r v).mem = s.mem := by
  cases r <;> rfl
@[simp] theorem cpuWrite_reg (s : State) (r : CpuReg) (v : Word) (i : RegNum) :
    (cpuWrite s r v).reg i = s.reg i := by
  cases r <;> rfl

@[simp] theorem cpuWrite_psw_psw (s : State) (v : Word) : (cpuWrite s .psw v).psw = pswOfWord s.cfg.pswLayout (v &&& s.cfg.pswImplMask) := rfl
@[simp] theorem cpuWrite_psw_tpc (s : State) (v : Word) : (cpuWrite s .psw v).tpc = s.tpc := rfl
@[simp] theorem cpuWrite_psw_tma (s : State) (v : Word) : (cpuWrite s .psw v).tma = s.tma := rfl
@[simp] theorem cpuWrite_psw_tsv (s : State) (v : Word) : (cpuWrite s .psw v).tsv = s.tsv := rfl
@[simp] theorem cpuWrite_psw_cyc (s : State) (v : Word) : (cpuWrite s .psw v).cyc = s.cyc := rfl
@[simp] theorem cpuWrite_tpc_psw (s : State) (v : Word) : (cpuWrite s .tpc v).psw = s.psw := rfl
@[simp] theorem cpuWrite_tpc_tpc (s : State) (v : Word) : (cpuWrite s .tpc v).tpc = v := rfl
@[simp] theorem cpuWrite_tpc_tma (s : State) (v : Word) : (cpuWrite s .tpc v).tma = s.tma := rfl
@[simp] theorem cpuWrite_tpc_tsv (s : State) (v : Word) : (cpuWrite s .tpc v).tsv = s.tsv := rfl
@[simp] theorem cpuWrite_tpc_cyc (s : State) (v : Word) : (cpuWrite s .tpc v).cyc = s.cyc := rfl
@[simp] theorem cpuWrite_tma_psw (s : State) (v : Word) : (cpuWrite s .tma v).psw = s.psw := rfl
@[simp] theorem cpuWrite_tma_tpc (s : State) (v : Word) : (cpuWrite s .tma v).tpc = s.tpc := rfl
@[simp] theorem cpuWrite_tma_tma (s : State) (v : Word) : (cpuWrite s .tma v).tma = v := rfl
@[simp] theorem cpuWrite_tma_tsv (s : State) (v : Word) : (cpuWrite s .tma v).tsv = s.tsv := rfl
@[simp] theorem cpuWrite_tma_cyc (s : State) (v : Word) : (cpuWrite s .tma v).cyc = s.cyc := rfl
@[simp] theorem cpuWrite_tsv_psw (s : State) (v : Word) : (cpuWrite s .tsv v).psw = s.psw := rfl
@[simp] theorem cpuWrite_tsv_tpc (s : State) (v : Word) : (cpuWrite s .tsv v).tpc = s.tpc := rfl
@[simp] theorem cpuWrite_tsv_tma (s : State) (v : Word) : (cpuWrite s .tsv v).tma = s.tma := rfl
@[simp] theorem cpuWrite_tsv_tsv (s : State) (v : Word) : (cpuWrite s .tsv v).tsv = v := rfl
@[simp] theorem cpuWrite_tsv_cyc (s : State) (v : Word) : (cpuWrite s .tsv v).cyc = s.cyc := rfl
@[simp] theorem cpuWrite_cyc_psw (s : State) (v : Word) : (cpuWrite s .cyc v).psw = s.psw := rfl
@[simp] theorem cpuWrite_cyc_tpc (s : State) (v : Word) : (cpuWrite s .cyc v).tpc = s.tpc := rfl
@[simp] theorem cpuWrite_cyc_tma (s : State) (v : Word) : (cpuWrite s .cyc v).tma = s.tma := rfl
@[simp] theorem cpuWrite_cyc_tsv (s : State) (v : Word) : (cpuWrite s .cyc v).tsv = s.tsv := rfl
@[simp] theorem cpuWrite_cyc_cyc (s : State) (v : Word) : (cpuWrite s .cyc v).cyc = Config.cycWrite s.cyc v s.draws := rfl

@[simp] theorem deliverCpuValue_cfg (s : State) (d : RegNum) (v : Word) (n : Nat) :
    (deliverCpuValue s d v n).cfg = s.cfg := by
  unfold deliverCpuValue; split <;> rfl
@[simp] theorem deliverCpuValue_tpc (s : State) (d : RegNum) (v : Word) (n : Nat) :
    (deliverCpuValue s d v n).tpc = s.tpc := by
  unfold deliverCpuValue; split <;> rfl
@[simp] theorem deliverCpuValue_tma (s : State) (d : RegNum) (v : Word) (n : Nat) :
    (deliverCpuValue s d v n).tma = s.tma := by
  unfold deliverCpuValue; split <;> rfl
@[simp] theorem deliverCpuValue_tsv (s : State) (d : RegNum) (v : Word) (n : Nat) :
    (deliverCpuValue s d v n).tsv = s.tsv := by
  unfold deliverCpuValue; split <;> rfl
@[simp] theorem deliverCpuValue_cyc (s : State) (d : RegNum) (v : Word) (n : Nat) :
    (deliverCpuValue s d v n).cyc = s.cyc := by
  unfold deliverCpuValue; split <;> rfl
@[simp] theorem deliverCpuValue_mmu (s : State) (d : RegNum) (v : Word) (n : Nat) :
    (deliverCpuValue s d v n).mmu = s.mmu := by
  unfold deliverCpuValue; split <;> rfl
@[simp] theorem deliverCpuValue_extra (s : State) (d : RegNum) (v : Word) (n : Nat) :
    (deliverCpuValue s d v n).extra = s.extra := by
  unfold deliverCpuValue; split <;> rfl
@[simp] theorem deliverCpuValue_costat (s : State) (d : RegNum) (v : Word) (n : Nat) :
    (deliverCpuValue s d v n).costat = s.costat := by
  unfold deliverCpuValue; split <;> rfl
@[simp] theorem deliverCpuValue_co (s : State) (d : RegNum) (v : Word) (n : Nat) :
    (deliverCpuValue s d v n).co = s.co := by
  unfold deliverCpuValue; split <;> rfl
@[simp] theorem deliverCpuValue_mem (s : State) (d : RegNum) (v : Word) (n : Nat) :
    (deliverCpuValue s d v n).mem = s.mem := by
  unfold deliverCpuValue; split <;> rfl

/-! ### The transfers of COGET -/

@[simp] theorem cogetCostatState_cfg (s : State) (d : RegNum) :
    (cogetCostatState s d).cfg = s.cfg := rfl
@[simp] theorem cogetCostatState_gpr (s : State) (d : RegNum) :
    (cogetCostatState s d).gpr = (s.setReg d (costatValue s)).gpr := rfl
@[simp] theorem cogetCostatState_pc (s : State) (d : RegNum) :
    (cogetCostatState s d).pc = s.pc + 2#32 := rfl
@[simp] theorem cogetCostatState_tpc (s : State) (d : RegNum) :
    (cogetCostatState s d).tpc = s.tpc := rfl
@[simp] theorem cogetCostatState_tma (s : State) (d : RegNum) :
    (cogetCostatState s d).tma = s.tma := rfl
@[simp] theorem cogetCostatState_tsv (s : State) (d : RegNum) :
    (cogetCostatState s d).tsv = s.tsv := rfl
@[simp] theorem cogetCostatState_cyc (s : State) (d : RegNum) :
    (cogetCostatState s d).cyc = s.cyc := rfl
@[simp] theorem cogetCostatState_mmu (s : State) (d : RegNum) :
    (cogetCostatState s d).mmu = s.mmu := rfl
@[simp] theorem cogetCostatState_extra (s : State) (d : RegNum) :
    (cogetCostatState s d).extra = s.extra := rfl
@[simp] theorem cogetCostatState_costat (s : State) (d : RegNum) :
    (cogetCostatState s d).costat = s.costat := rfl
@[simp] theorem cogetCostatState_co (s : State) (d : RegNum) :
    (cogetCostatState s d).co = s.co := rfl
@[simp] theorem cogetCostatState_mem (s : State) (d : RegNum) :
    (cogetCostatState s d).mem = s.mem := rfl
@[simp] theorem cogetCostatState_draws (s : State) (d : RegNum) :
    (cogetCostatState s d).draws = s.draws := rfl
@[simp] theorem cogetCostatState_psw_bcdc (s : State) (d : RegNum) :
    (cogetCostatState s d).psw.bcdc = s.psw.bcdc := rfl
@[simp] theorem cogetCostatState_psw_oldLevel (s : State) (d : RegNum) :
    (cogetCostatState s d).psw.oldLevel = s.psw.oldLevel := rfl
@[simp] theorem cogetCostatState_psw_level (s : State) (d : RegNum) :
    (cogetCostatState s d).psw.level = s.psw.level := rfl

@[simp] theorem cogetState_cfg (s : State) (k : Config.CoId) (d r : RegNum) :
    (cogetState s k d r).cfg = s.cfg := rfl
@[simp] theorem cogetState_gpr (s : State) (k : Config.CoId) (d r : RegNum) :
    (cogetState s k d r).gpr = (s.setReg d (Config.coRead k (coWait k r s.co[k.val]) r).value).gpr := rfl
@[simp] theorem cogetState_pc (s : State) (k : Config.CoId) (d r : RegNum) :
    (cogetState s k d r).pc = s.pc + 2#32 := rfl
@[simp] theorem cogetState_tpc (s : State) (k : Config.CoId) (d r : RegNum) :
    (cogetState s k d r).tpc = s.tpc := rfl
@[simp] theorem cogetState_tma (s : State) (k : Config.CoId) (d r : RegNum) :
    (cogetState s k d r).tma = s.tma := rfl
@[simp] theorem cogetState_tsv (s : State) (k : Config.CoId) (d r : RegNum) :
    (cogetState s k d r).tsv = s.tsv := rfl
@[simp] theorem cogetState_cyc (s : State) (k : Config.CoId) (d r : RegNum) :
    (cogetState s k d r).cyc = s.cyc := rfl
@[simp] theorem cogetState_mmu (s : State) (k : Config.CoId) (d r : RegNum) :
    (cogetState s k d r).mmu = s.mmu := rfl
@[simp] theorem cogetState_extra (s : State) (k : Config.CoId) (d r : RegNum) :
    (cogetState s k d r).extra = s.extra := rfl
@[simp] theorem cogetState_costat (s : State) (k : Config.CoId) (d r : RegNum) :
    (cogetState s k d r).costat = s.costat := rfl
@[simp] theorem cogetState_co (s : State) (k : Config.CoId) (d r : RegNum) :
    (cogetState s k d r).co = s.co.set k.val (Config.coRead k (coWait k r s.co[k.val]) r).next := rfl
@[simp] theorem cogetState_mem (s : State) (k : Config.CoId) (d r : RegNum) :
    (cogetState s k d r).mem = s.mem := rfl
@[simp] theorem cogetState_draws (s : State) (k : Config.CoId) (d r : RegNum) :
    (cogetState s k d r).draws = s.draws := rfl
@[simp] theorem cogetState_psw_bcdc (s : State) (k : Config.CoId) (d r : RegNum) :
    (cogetState s k d r).psw.bcdc = s.psw.bcdc := rfl
@[simp] theorem cogetState_psw_oldLevel (s : State) (k : Config.CoId) (d r : RegNum) :
    (cogetState s k d r).psw.oldLevel = s.psw.oldLevel := rfl
@[simp] theorem cogetState_psw_level (s : State) (k : Config.CoId) (d r : RegNum) :
    (cogetState s k d r).psw.level = s.psw.level := rfl

end Sys2Proof.Machine
end

