-- ==== Sys2Proof/Laws/Ops.lean ====
section
/-! SUPPORT. For each shared operation what it can do, said once. -/

namespace Sys2Proof.Machine

open Config

/-! ### General registers -/

@[simp] theorem reg_zero (s : State) : s.reg 0#4 = 0#32 := rfl

/-- A register read after a register write. -/
theorem reg_setReg (s : State) (i j : RegNum) (v : Word) :
    (s.setReg i v).reg j = if j = i ∧ i ≠ 0#4 then v else s.reg j := by
  by_cases hi : i = 0#4
  · subst hi; simp [State.reg, State.setReg]
  by_cases hj : j = 0#4
  · subst hj
    have h0 : ¬(0#4) = i := fun h => hi h.symm
    simp [State.reg, h0]
  have hi0 : i.toNat ≠ 0 := fun h => hi (BitVec.eq_of_toNat_eq (by simpa using h))
  have hj0 : j.toNat ≠ 0 := fun h => hj (BitVec.eq_of_toNat_eq (by simpa using h))
  by_cases hji : j = i
  · subst hji; simp [State.reg, State.setReg, hj]
  · have hne : i.toNat - 1 ≠ j.toNat - 1 := by
      intro h
      exact hji (BitVec.eq_of_toNat_eq (by omega))
    simp [State.reg, State.setReg, hi, hj, hji, hne]

@[simp] theorem reg_setReg_same (s : State) (i : RegNum) (v : Word) (hi : i ≠ 0#4) :
    (s.setReg i v).reg i = v := by
  simp [reg_setReg, hi]

theorem reg_setReg_other (s : State) (i j : RegNum) (v : Word) (h : j ≠ i) :
    (s.setReg i v).reg j = s.reg j := by
  simp [reg_setReg, h]

/-- A write to designator 0 changes nothing. -/
@[simp] theorem setReg_zero (s : State) (v : Word) : s.setReg 0#4 v = s := rfl

/-- `gpr_or_zero` is the register read: designator 0 reads as 0. -/
theorem gprOrZero_eq (s : State) (f : RegNum) : gprOrZero s f = s.reg f := by
  unfold gprOrZero; split
  · next h => subst h; rfl
  · rfl

@[simp] theorem gprOrPc_zero (s : State) : gprOrPc s 0#4 = pcOperand s := rfl

theorem gprOrPc_reg (s : State) (f : RegNum) (h : f ≠ 0#4) : gprOrPc s f = s.reg f := by
  simp [gprOrPc, h]

/-! ### What the shared answers can be -/

theorem privileged_trap (s : State) (body : Result) (h : s.psw.level = unprivilegedLevel) :
    privileged s body = .next (takeTrap s .privilegeViolation) := by
  simp [privileged, h]

theorem privileged_body (s : State) (body : Result) (h : s.psw.level ≠ unprivilegedLevel) :
    privileged s body = body := by
  simp [privileged, h]

/-- A privileged instruction traps at level 1111 and does its body at every other level. -/
theorem privileged_cases (s : State) (body : Result) :
    (s.psw.level = unprivilegedLevel ∧ privileged s body = .next (takeTrap s .privilegeViolation))
      ∨ (s.psw.level ≠ unprivilegedLevel ∧ privileged s body = body) := by
  by_cases h : s.psw.level = unprivilegedLevel
  · exact .inl ⟨h, privileged_trap s body h⟩
  · exact .inr ⟨h, privileged_body s body h⟩

/-- A reserved word is refused or takes the unimplemented-instruction trap, by the policy. -/
theorem reserved_cases (why : Refusal) (s : State) :
    (s.cfg.reservedPolicy = .refuse ∧ reserved why s = .refused why)
      ∨ (s.cfg.reservedPolicy = .trap
          ∧ reserved why s = .next (takeTrap s .unimplementedInstruction)) := by
  unfold reserved
  cases s.cfg.reservedPolicy <;> simp

/-- On a Sparrowhawk a coprocessor instruction traps, on a Hawk it does its body. -/
theorem withCoprocessors_cases (s : State) (body : Result) :
    (s.cfg.hasCoprocessors = true ∧ withCoprocessors s body = body)
      ∨ (s.cfg.hasCoprocessors = false
          ∧ withCoprocessors s body = .next (takeTrap s .unimplementedInstruction)) := by
  unfold withCoprocessors
  cases s.cfg.hasCoprocessors <;> simp

/-- A COGET with dst = 0 is refused where the parameter says so, else it does its body. -/
theorem cogetAllowed_cases (s : State) (dst : RegNum) (body : Result) :
    (dst = 0#4 ∧ s.cfg.cogetDst0 = .refuse ∧ cogetAllowed s dst body = .refused .cogetDst0)
      ∨ ((dst ≠ 0#4 ∨ s.cfg.cogetDst0 = .discard) ∧ cogetAllowed s dst body = body) := by
  unfold cogetAllowed
  cases s.cfg.cogetDst0 <;> by_cases h : dst = 0#4 <;> simp [h]

/-- ADJUST: reserved for dst = 0, else one addition to one register. -/
theorem adjust_cases (a : Word) (dst : RegNum) (s : State) :
    (dst = 0#4 ∧ adjust a dst s = reserved .reservedAdjustDst0 s)
      ∨ (dst ≠ 0#4 ∧ adjust a dst s = .next (s.setReg dst (s.reg dst + a)).advance) := by
  unfold adjust
  by_cases h : dst = 0#4 <;> simp [h]

/-- PLUS: reserved for dst = 0, else one addition to one register. -/
theorem execPlus_cases (dst src : RegNum) (s : State) :
    (dst = 0#4 ∧ execPlus dst src s = reserved .reservedPlusDst0 s)
      ∨ (dst ≠ 0#4
          ∧ execPlus dst src s = .next (s.setReg dst (s.reg dst + gprOrPc s src)).advance) := by
  unfold execPlus
  by_cases h : dst = 0#4 <;> simp [h]

/-- The test that a value of COSTAT is the value `w`. -/
def isValue (w : Word) : BitTest := { mask := BitVec.allOnes 32, value := w }

@[simp] theorem meetsTest_isValue (v w : Word) : meetsTest v (isValue w) = (v == w) := by
  unfold meetsTest isValue
  rw [BitVec.and_allOnes]

/-- A test that looks at bits of a mask alone is met alike by a value and by its bits in the mask. -/
theorem meetsTest_and (v m : Word) (t : BitTest) (h : m &&& t.mask = t.mask) :
    meetsTest (v &&& m) t = meetsTest v t := by
  unfold meetsTest
  rw [BitVec.and_assoc, h]

/-- A test that asks for a 1 outside a mask is met by no value within the mask. -/
theorem meetsTest_and_false (v m : Word) (t : BitTest) (h : t.value &&& m ≠ t.value) :
    meetsTest (v &&& m) t = false := by
  refine beq_eq_false_iff_ne.2 (fun e => h ?_)
  rw [← e, BitVec.and_assoc, BitVec.and_assoc, BitVec.and_comm t.mask m, ← BitVec.and_assoc m m,
    BitVec.and_self, ← BitVec.and_assoc]

/-- Every `COSTAT_LAYOUT` of 00_scope.md R5, a mask and two functions of a value, is a table of
tests: one test for each value. -/
theorem costatLayout_expresses (implMask : Word) (enabled : Word → CoId → Bool)
    (selected : Word → Option CoId) :
    ∃ l : CostatLayout, l.implMask = implMask
      ∧ ∀ v, coSelected l v = selected v ∧ ∀ k, coEnabled l v k = enabled v k := by
  have all_mem (v : Word) : v ∈ (List.range (2 ^ 32)).map (BitVec.ofNat 32) :=
    List.mem_map.2 ⟨v.toNat, List.mem_range.2 v.isLt, by simp⟩
  generalize (List.range (2 ^ 32)).map (BitVec.ofNat 32) = values at all_mem
  refine ⟨⟨implMask, Vector.ofFn (fun k => (values.filter (fun v => enabled v k)).map isValue),
      values.filterMap (fun v => (selected v).map (fun k => (isValue v, k)))⟩, rfl,
    fun v => ⟨?_, fun k => ?_⟩⟩
  · unfold coSelected
    cases hf : List.find? (fun row : BitTest × CoId => meetsTest v row.1)
        (values.filterMap (fun v => (selected v).map (fun k => (isValue v, k)))) with
    | none =>
      rw [List.find?_eq_none] at hf
      cases hs : selected v with
      | none => rfl
      | some k =>
        exact absurd (by simp)
          (hf (isValue v, k) (List.mem_filterMap.2 ⟨v, all_mem v, by simp [hs]⟩))
    | some row =>
      have hp := List.find?_some hf
      obtain ⟨w, -, hw⟩ := List.mem_filterMap.1 (List.mem_of_find?_eq_some hf)
      obtain ⟨k, hk, rfl⟩ := Option.map_eq_some_iff.1 hw
      simp only [meetsTest_isValue, beq_iff_eq] at hp
      simp [hp, hk]
  · cases he : enabled v k
    · simp only [coEnabled, Vector.getElem_ofFn, Bool.eq_false_iff]
      intro h
      obtain ⟨x, hx, hv⟩ := List.any_eq_true.1 h
      obtain ⟨w, hw, rfl⟩ := List.mem_map.1 hx
      simp_all
    · simp only [coEnabled, Vector.getElem_ofFn]
      exact List.any_eq_true.2
        ⟨isValue v, List.mem_map.2 ⟨v, List.mem_filter.2 ⟨all_mem v, he⟩, rfl⟩, by simp⟩

/-- One step of its own brings a coprocessor one step nearer to being ready. -/
theorem coStep_left (k : CoId) (c : CoState) (n : Fin 16) (h : c.left[n.val] ≠ 0) :
    (coStep k c).left[n.val] = c.left[n.val] - 1 := by
  simp [coStep, h]

/-- A COGET of a coprocessor that is ready does not hold. -/
theorem coWait_of_ready (k : CoId) (src : RegNum) (c : CoState) (h : coReady c src = true) :
    coWait k src c = c := by
  have h0 : c.left[src.toNat]'src.isLt = 0 := by simpa [coReady] using h
  simp [coWait, h0, coSteps]

/-- The access check answers a coprocessor that is selected, present and enabled
(43_coprocessor.md R108). -/
theorem coOk_eq_some (s : State) (k : CoId) :
    coOk s = some k ↔
      coSelected s.cfg.costatLayout (costatValue s) = some k ∧ s.cfg.present[k.val] = true
        ∧ coEnabled s.cfg.costatLayout (costatValue s) k = true := by
  unfold coOk
  cases h : coSelected s.cfg.costatLayout (costatValue s) with
  | none => simp
  | some k' =>
    simp only [Option.some.injEq]
    constructor
    · intro hk
      split at hk
      · next hb =>
        simp only [Option.some.injEq] at hk
        subst hk
        simpa using hb
      · cases hk
    · rintro ⟨rfl, hp, he⟩
      simp [hp, he]

/-- COSET to a coprocessor register: the trap, or one write of that coprocessor. -/
theorem cosetRegister_cases (v : Word) (src : RegNum) (s : State) :
    (coOk s = none ∧ cosetRegister v src s = .next (takeTrap s .coprocessorTrap))
      ∨ ∃ k, coOk s = some k
          ∧ cosetRegister v src s = .next (s.setCo k (coWrite k s.co[k.val] src v)).advance := by
  unfold cosetRegister
  cases h : coOk s with
  | none => simp
  | some k => exact .inr ⟨k, rfl, rfl⟩

/-- COSET: the unimplemented-instruction trap, a write of COSTAT, the coprocessor trap, or a write
of one coprocessor. -/
theorem execCoset_cases (srcx src : RegNum) (s : State) :
    (s.cfg.hasCoprocessors = false
        ∧ execCoset srcx src s = .next (takeTrap s .unimplementedInstruction))
      ∨ (s.cfg.hasCoprocessors = true ∧ src = 0#4
        ∧ execCoset srcx src s = .next (setCostat s (s.reg srcx)).advance)
      ∨ (s.cfg.hasCoprocessors = true ∧ src ≠ 0#4 ∧ coOk s = none
        ∧ execCoset srcx src s = .next (takeTrap s .coprocessorTrap))
      ∨ ∃ k, s.cfg.hasCoprocessors = true ∧ src ≠ 0#4 ∧ coOk s = some k
        ∧ execCoset srcx src s
            = .next (s.setCo k (coWrite k s.co[k.val] src (s.reg srcx))).advance := by
  unfold execCoset
  rw [gprOrZero_eq]
  rcases withCoprocessors_cases s
      (if src = 0#4 then .next (setCostat s (s.reg srcx)).advance
        else cosetRegister (s.reg srcx) src s) with ⟨h, e⟩ | ⟨h, e⟩
  · rw [e]
    by_cases hs : src = 0#4
    · simp [h, hs]
    · simp only [hs, if_false]
      rcases cosetRegister_cases (s.reg srcx) src s with ⟨hk, e'⟩ | ⟨k, hk, e'⟩
      · exact .inr (.inr (.inl ⟨h, hs, hk, e'⟩))
      · exact .inr (.inr (.inr ⟨k, h, hs, hk, e'⟩))
  · exact .inl ⟨h, e⟩

/-- COGET from COSTAT: the trap of a Sparrowhawk, the refusal of dst = 0, or the transfer. -/
theorem cogetFromCostat_cases (dst : RegNum) (s : State) :
    (s.cfg.hasCoprocessors = false
        ∧ cogetFromCostat dst s = .next (takeTrap s .unimplementedInstruction))
      ∨ (s.cfg.hasCoprocessors = true ∧ dst = 0#4 ∧ s.cfg.cogetDst0 = .refuse
        ∧ cogetFromCostat dst s = .refused .cogetDst0)
      ∨ (s.cfg.hasCoprocessors = true ∧ (dst ≠ 0#4 ∨ s.cfg.cogetDst0 = .discard)
        ∧ cogetFromCostat dst s = .next (cogetCostatState s dst)) := by
  unfold cogetFromCostat
  rcases withCoprocessors_cases s
      (cogetAllowed s dst <| .next (cogetCostatState s dst)) with ⟨h, e⟩ | ⟨h, e⟩
  · rw [e]
    rcases cogetAllowed_cases s dst (.next (cogetCostatState s dst)) with
      ⟨hd, hc, e'⟩ | ⟨hd, e'⟩
    · exact .inr (.inl ⟨h, hd, hc, e'⟩)
    · exact .inr (.inr ⟨h, hd, e'⟩)
  · exact .inl ⟨h, e⟩

/-- COGET from a coprocessor register: the trap of a Sparrowhawk, the refusal of dst = 0, the
coprocessor trap, or the transfer after the hold. -/
theorem cogetFromRegister_cases (dst src : RegNum) (s : State) :
    (s.cfg.hasCoprocessors = false
        ∧ cogetFromRegister dst src s = .next (takeTrap s .unimplementedInstruction))
      ∨ (s.cfg.hasCoprocessors = true ∧ dst = 0#4 ∧ s.cfg.cogetDst0 = .refuse
        ∧ cogetFromRegister dst src s = .refused .cogetDst0)
      ∨ (s.cfg.hasCoprocessors = true ∧ (dst ≠ 0#4 ∨ s.cfg.cogetDst0 = .discard) ∧ coOk s = none
        ∧ cogetFromRegister dst src s = .next (takeTrap s .coprocessorTrap))
      ∨ ∃ k, s.cfg.hasCoprocessors = true ∧ (dst ≠ 0#4 ∨ s.cfg.cogetDst0 = .discard)
        ∧ coOk s = some k ∧ cogetFromRegister dst src s = .next (cogetState s k dst src) := by
  unfold cogetFromRegister
  generalize hb : cogetSelected dst src s = body
  rcases withCoprocessors_cases s (cogetAllowed s dst body) with ⟨h, e⟩ | ⟨h, e⟩
  · rw [e]
    rcases cogetAllowed_cases s dst body with ⟨hd, hc, e'⟩ | ⟨hd, e'⟩
    · exact .inr (.inl ⟨h, hd, hc, e'⟩)
    · rw [e', ← hb]
      unfold cogetSelected
      cases hk : coOk s with
      | none => exact .inr (.inr (.inl ⟨h, hd, rfl, rfl⟩))
      | some k => exact .inr (.inr (.inr ⟨k, h, hd, rfl, rfl⟩))
  · exact .inl ⟨h, e⟩

/-- CPUGET and CPUSET of an undefined register: the privilege trap, the register that the CPU
implements, or the policy. -/
theorem execCpuUndefined_cases (access : CpuAccess) (dst : RegNum) (src : ExtraReg) (s : State) :
    (s.psw.level = unprivilegedLevel
        ∧ execCpuUndefined access dst src s = .next (takeTrap s .privilegeViolation))
      ∨ (s.psw.level ≠ unprivilegedLevel ∧ src ∈ s.cfg.extraCpuRegs
        ∧ execCpuUndefined access dst src s = .next (extraCpuAccess access dst src s))
      ∨ (s.psw.level ≠ unprivilegedLevel ∧ src ∉ s.cfg.extraCpuRegs
        ∧ execCpuUndefined access dst src s = reserved .undefinedCpuRegister s) := by
  unfold execCpuUndefined
  by_cases h : s.psw.level = unprivilegedLevel
  · exact .inl ⟨h, privileged_trap s _ h⟩
  · rw [privileged_body s _ h]
    by_cases hs : src ∈ s.cfg.extraCpuRegs <;> simp [h, hs]

/-- The transfer of a CPUGET to the pc. -/
theorem deliverCpuValue_zero (s : State) (v : Word) (n : Nat) :
    deliverCpuValue s 0#4 v n = { returnTo s v with draws := n } := by
  simp [deliverCpuValue]

/-- The transfer of a CPUGET to a general register. -/
theorem deliverCpuValue_reg (s : State) (dst : RegNum) (v : Word) (n : Nat) (h : dst ≠ 0#4) :
    deliverCpuValue s dst v n = { (s.setReg dst v).advance with draws := n } := by
  simp [deliverCpuValue, h]

/-! ### The fetch and the step -/

/-- A fetch that gives a word read its two bytes at an even pc. -/
theorem fetch_word (s : State) (w : Half) :
    fetch s = .word w ↔
      s.pc[0] = false ∧ ∃ lower higher,
        Memory.readByte s.mem s.pc.toNat = some lower
          ∧ Memory.readByte s.mem (s.pc + 1#32).toNat = some higher ∧ w = wordOfBytes lower higher := by
  unfold fetch
  cases hp : s.pc[0] <;> simp only [Bool.false_eq_true, if_true, if_false]
  · cases h0 : Memory.readByte s.mem s.pc.toNat <;>
      cases h1 : Memory.readByte s.mem (s.pc + 1#32).toNat <;> simp [eq_comm]
  · simp

/-- What a step can answer: the refusal of an odd pc, the memory-addressing trap, the meaning of
the decoded instruction, or the refusal of a word that is no special instruction. -/
theorem stepWith_cases (execute : Instr → State → Result) (s : State) :
    (fetch (beforeExec s) = .oddPc ∧ stepWith execute s = .refused .oddPc)
      ∨ (∃ va, fetch (beforeExec s) = .unreadable va
          ∧ stepWith execute s = .next (takeTrap (beforeExec s) (.memoryAddressing va)))
      ∨ (∃ w i, fetch (beforeExec s) = .word w ∧ decode w = .ok i
          ∧ stepWith execute s = execute i (beforeExec s))
      ∨ (∃ w e, fetch (beforeExec s) = .word w ∧ decode w = .error e
          ∧ stepWith execute s = .refused (refusalOfDecode w e)) := by
  unfold stepWith
  cases hf : fetch (beforeExec s) with
  | oddPc => simp
  | unreadable va => simp
  | word w =>
    cases hd : decode w with
    | ok i => exact .inr (.inr (.inl ⟨w, i, rfl, hd, by simp [hd]⟩))
    | error e => exact .inr (.inr (.inr ⟨w, e, rfl, hd, by simp [hd]⟩))

end Sys2Proof.Machine
end

