-- ==== Sys2Proof/Laws/Exec.lean ====
section
/-! SUPPORT. What one instruction, and one step, can do, said once: every rule of the whole
machine is derived from here. -/

namespace Sys2Proof.Machine

open Config

/-- The next states of an instruction at a state, one case for each kind of effect. -/
inductive ExecNext (i : Instr) (s : State) : State → Prop where
  /-- a trap of the instruction -/
  | trap (c : Trap) (h : ∀ va, c ≠ .memoryAddressing va) : ExecNext i s (takeTrap s c)
  /-- ADJUST and PLUS: one register and the pc -/
  | add (dst : RegNum) (v : Word) (h : dst ≠ 0#4) : ExecNext i s (s.setReg dst v).advance
  /-- CPUSET of a defined register -/
  | cpuset (srcx : RegNum) (r : CpuReg) (hi : i = .cpuset srcx r)
      (hl : s.psw.level ≠ unprivilegedLevel) : ExecNext i s (cpuWrite s r (s.reg srcx)).advance
  /-- CPUGET, of whatever register -/
  | cpuget (dst : RegNum) (v : Word) (n : Nat) (hl : s.psw.level ≠ unprivilegedLevel)
      (hi : (∃ r, i = .cpuget dst r) ∨ (dst = 0#4 ∧ ∃ r, i = .cpugetPc r)
        ∨ ∃ x, i = .cpuUndefined .get dst x) : ExecNext i s (deliverCpuValue s dst v n)
  /-- RTT -/
  | rtt (hi : i = .rtt) (hl : s.psw.level ≠ unprivilegedLevel) : ExecNext i s (returnTo s s.tpc)
  /-- CPUSET of an undefined register that the CPU implements -/
  | extraSet (srcx : RegNum) (x : ExtraReg) (hi : i = .cpuUndefined .set srcx x)
      (hl : s.psw.level ≠ unprivilegedLevel) :
      ExecNext i s (extraCpuWrite s x (s.reg srcx)).advance
  /-- COSET to COSTAT -/
  | cosetCostat (srcx : RegNum) (hi : i = .coset srcx 0#4) (hc : s.cfg.hasCoprocessors = true) :
      ExecNext i s (setCostat s (s.reg srcx)).advance
  /-- COSET to a coprocessor register -/
  | coset (srcx src : RegNum) (k : CoId) (hi : i = .coset srcx src) (hk : coOk s = some k) :
      ExecNext i s (s.setCo k (coWrite k s.co[k.val] src (s.reg srcx))).advance
  /-- COGET from COSTAT -/
  | cogetCostat (dst : RegNum) (hi : i = .cogetCostat dst ∨ i = .coget dst 0#4) :
      ExecNext i s (cogetCostatState s dst)
  /-- COGET from a coprocessor register, after the hold -/
  | coget (dst src : RegNum) (k : CoId) (hi : i = .coget dst src) (hk : coOk s = some k) :
      ExecNext i s (cogetState s k dst src)

theorem next_inj {a b : State} (h : (Host.Outcome.next a : Result) = .next b) : a = b := by
  injection h

theorem reserved_execNext (i : Instr) (why : Refusal) (s t : State)
    (h : reserved why s = .next t) : ExecNext i s t := by
  rcases reserved_cases why s with ⟨_, e⟩ | ⟨_, e⟩ <;> rw [e] at h
  · cases h
  · cases next_inj h
    exact .trap _ (by intro va; simp)

theorem adjust_execNext (i : Instr) (a : Word) (dst : RegNum) (s t : State)
    (h : adjust a dst s = .next t) : ExecNext i s t := by
  rcases adjust_cases a dst s with ⟨_, e⟩ | ⟨hd, e⟩ <;> rw [e] at h
  · exact reserved_execNext i _ s t h
  · cases next_inj h
    exact .add dst _ hd

theorem privileged_execNext (i : Instr) (body : Result) (s t : State)
    (h : privileged s body = .next t)
    (hb : s.psw.level ≠ unprivilegedLevel → body = .next t → ExecNext i s t) :
    ExecNext i s t := by
  rcases privileged_cases s body with ⟨_, e⟩ | ⟨hl, e⟩ <;> rw [e] at h
  · cases next_inj h
    exact .trap _ (by intro va; simp)
  · exact hb hl h

theorem cogetFromCostat_execNext (i : Instr) (dst : RegNum) (s t : State)
    (hi : i = .cogetCostat dst ∨ i = .coget dst 0#4)
    (h : cogetFromCostat dst s = .next t) : ExecNext i s t := by
  rcases cogetFromCostat_cases dst s with ⟨_, e⟩ | ⟨_, _, _, e⟩ | ⟨_, _, e⟩ <;> rw [e] at h
  · cases next_inj h
    exact .trap _ (by intro va; simp)
  · cases h
  · cases next_inj h
    exact .cogetCostat dst hi

theorem cogetFromRegister_execNext (dst src : RegNum) (s t : State)
    (h : cogetFromRegister dst src s = .next t) : ExecNext (.coget dst src) s t := by
  rcases cogetFromRegister_cases dst src s with
    ⟨_, e⟩ | ⟨_, _, _, e⟩ | ⟨_, _, _, e⟩ | ⟨k, _, _, hk, e⟩ <;> rw [e] at h
  · cases next_inj h
    exact .trap _ (by intro va; simp)
  · cases h
  · cases next_inj h
    exact .trap _ (by intro va; simp)
  · cases next_inj h
    exact .coget dst src k rfl hk

/-- What an instruction can do: if it answers a next state, that state is one of the cases. -/
theorem exec_next (i : Instr) (s t : State) (h : exec i s = .next t) : ExecNext i s t := by
  cases i with
  | cpuset srcx r =>
    refine privileged_execNext _ _ s t h (fun hl hb => ?_)
    cases next_inj hb
    rw [gprOrZero_eq]
    exact .cpuset srcx r rfl hl
  | cpuget dst r =>
    refine privileged_execNext _ _ s t h (fun hl hb => ?_)
    cases next_inj hb
    exact .cpuget dst _ _ hl (.inl ⟨r, rfl⟩)
  | cpugetPc r =>
    refine privileged_execNext _ _ s t h (fun hl hb => ?_)
    cases next_inj hb
    exact .cpuget 0#4 _ _ hl (.inr (.inl ⟨rfl, r, rfl⟩))
  | rtt =>
    refine privileged_execNext _ _ s t h (fun hl hb => ?_)
    cases next_inj hb
    exact .rtt rfl hl
  | coset srcx src =>
    change execCoset srcx src s = .next t at h
    rcases execCoset_cases srcx src s with
      ⟨_, e⟩ | ⟨hc, hs, e⟩ | ⟨_, _, _, e⟩ | ⟨k, _, _, hk, e⟩ <;> rw [e] at h <;> cases next_inj h
    · exact .trap _ (by intro va; simp)
    · exact .cosetCostat srcx (by rw [hs]) hc
    · exact .trap _ (by intro va; simp)
    · exact .coset srcx src k rfl hk
  | cogetCostat dst => exact cogetFromCostat_execNext _ dst s t (.inl rfl) h
  | coget dst src =>
    change execCoget dst src s = .next t at h
    unfold execCoget at h
    by_cases hs : src = 0#4
    · subst hs
      exact cogetFromCostat_execNext _ dst s t (.inr rfl) h
    · rw [if_neg hs] at h
      exact cogetFromRegister_execNext dst src s t h
  | plus dst src =>
    change execPlus dst src s = .next t at h
    rcases execPlus_cases dst src s with ⟨_, e⟩ | ⟨hd, e⟩ <;> rw [e] at h
    · exact reserved_execNext _ _ s t h
    · cases next_inj h
      exact .add dst _ hd
  | adjustBcd dst => exact adjust_execNext _ _ dst s t h
  | adjustEx3 dst => exact adjust_execNext _ _ dst s t h
  | adjustCmsb dst => exact adjust_execNext _ _ dst s t h
  | adjustSsq dst => exact adjust_execNext _ _ dst s t h
  | adjustPlus1 dst => exact adjust_execNext _ _ dst s t h
  | adjustPlus2 dst => exact adjust_execNext _ _ dst s t h
  | adjustPlus4 dst => exact adjust_execNext _ _ dst s t h
  | adjustPlus8 dst => exact adjust_execNext _ _ dst s t h
  | adjustPlus16 dst => exact adjust_execNext _ _ dst s t h
  | adjustPlus32 dst => exact adjust_execNext _ _ dst s t h
  | adjustPlus64 dst => exact adjust_execNext _ _ dst s t h
  | adjustPlus128 dst => exact adjust_execNext _ _ dst s t h
  | reservedAdjustSel0 dst => exact reserved_execNext _ _ s t h
  | reservedAdjustSel1 dst => exact reserved_execNext _ _ s t h
  | reservedAdjustSel6 dst => exact reserved_execNext _ _ s t h
  | reservedAdjustSel7 dst => exact reserved_execNext _ _ s t h
  | reservedAdjustDst0 src => exact reserved_execNext _ _ s t h
  | reservedPlusDst0 src => exact reserved_execNext _ _ s t h
  | cpuUndefined a f x =>
    change execCpuUndefined a f x s = .next t at h
    rcases execCpuUndefined_cases a f x s with ⟨_, e⟩ | ⟨hl, _, e⟩ | ⟨_, _, e⟩ <;> rw [e] at h
    · cases next_inj h
      exact .trap _ (by intro va; simp)
    · cases next_inj h
      cases a with
      | set =>
        simp only [extraCpuAccess, gprOrZero_eq]
        exact .extraSet f x rfl hl
      | get => exact .cpuget f _ _ hl (.inr (.inr ⟨x, rfl⟩))
    · exact reserved_execNext _ _ s t h
  | undefinedFn6 dst src => cases h
  | undefinedFn7 dst src => cases h

/-- What a step can do: if it answers a next state, that is the memory-addressing trap, or a next
state of the decoded instruction. -/
theorem step_next (s t : State) (h : step s = .next t) :
    (∃ va, fetch (beforeExec s) = .unreadable va
        ∧ t = takeTrap (beforeExec s) (.memoryAddressing va))
      ∨ ∃ w i, fetch (beforeExec s) = .word w ∧ decode w = .ok i ∧ exec i (beforeExec s) = .next t
        ∧ ExecNext i (beforeExec s) t := by
  change stepWith exec s = .next t at h
  rcases stepWith_cases exec s with ⟨_, e⟩ | ⟨va, hf, e⟩ | ⟨w, i, hf, hd, e⟩ | ⟨w, e', _, _, e⟩ <;>
    rw [e] at h
  · cases h
  · cases next_inj h
    exact .inl ⟨va, hf, rfl⟩
  · exact .inr ⟨w, i, hf, hd, h, exec_next i _ t h⟩
  · cases h

/-- The fetch sees the pc and memory alone, which what precedes the execution leaves as they are. -/
@[simp] theorem fetch_beforeExec (s : State) : fetch (beforeExec s) = fetch s := rfl

end Sys2Proof.Machine
end

