-- ==== Sys2Proof/Laws/PerInstr.lean ====
section
/-! SUPPORT. Statements made per instruction: every word the encoder writes is a special
instruction's (30_encoding.md R58). -/

namespace Sys2Proof.Laws.EncodesSpecial

/-- The word of an instruction has I[7:4] = 0001 and I[15] = 0. -/
def Statement (i : Instr) : Prop := opField (encode i) = 1#4 ∧ (encode i)[15] = false

/-- Bit 15 of an assembled word is bit 3 of its function code. -/
theorem assemble_bit15 (fn : BitVec 4) (dst src : RegNum) (h : fn[3] = false) :
    (assemble fn dst src)[15] = false := by
  simp [assemble, h]

theorem assemble_special (fn : BitVec 4) (dst src : RegNum) (h : fn[3] = false) :
    opField (assemble fn dst src) = 1#4 ∧ (assemble fn dst src)[15] = false :=
  ⟨opField_assemble fn dst src, assemble_bit15 fn dst src h⟩

theorem cpuset (srcx : RegNum) (src : CpuReg) : Statement (.cpuset srcx src) := assemble_special _ _ _ rfl

theorem cpuget (dst : RegNum) (src : CpuReg) : Statement (.cpuget dst src) := assemble_special _ _ _ rfl

theorem cpugetPc (src : CpuReg) : Statement (.cpugetPc src) := assemble_special _ _ _ rfl

theorem rtt : Statement (.rtt) := by
  unfold Statement; decide

theorem coset (srcx : RegNum) (src : RegNum) : Statement (.coset srcx src) := assemble_special _ _ _ rfl

theorem cogetCostat (dst : RegNum) : Statement (.cogetCostat dst) := assemble_special _ _ _ rfl

theorem coget (dst : RegNum) (src : RegNum) : Statement (.coget dst src) := assemble_special _ _ _ rfl

theorem plus (dst : RegNum) (src : RegNum) : Statement (.plus dst src) := assemble_special _ _ _ rfl

theorem adjustBcd (dst : RegNum) : Statement (.adjustBcd dst) := assemble_special _ _ _ rfl

theorem adjustEx3 (dst : RegNum) : Statement (.adjustEx3 dst) := assemble_special _ _ _ rfl

theorem adjustCmsb (dst : RegNum) : Statement (.adjustCmsb dst) := assemble_special _ _ _ rfl

theorem adjustSsq (dst : RegNum) : Statement (.adjustSsq dst) := assemble_special _ _ _ rfl

theorem adjustPlus1 (dst : RegNum) : Statement (.adjustPlus1 dst) := assemble_special _ _ _ rfl

theorem adjustPlus2 (dst : RegNum) : Statement (.adjustPlus2 dst) := assemble_special _ _ _ rfl

theorem adjustPlus4 (dst : RegNum) : Statement (.adjustPlus4 dst) := assemble_special _ _ _ rfl

theorem adjustPlus8 (dst : RegNum) : Statement (.adjustPlus8 dst) := assemble_special _ _ _ rfl

theorem adjustPlus16 (dst : RegNum) : Statement (.adjustPlus16 dst) := assemble_special _ _ _ rfl

theorem adjustPlus32 (dst : RegNum) : Statement (.adjustPlus32 dst) := assemble_special _ _ _ rfl

theorem adjustPlus64 (dst : RegNum) : Statement (.adjustPlus64 dst) := assemble_special _ _ _ rfl

theorem adjustPlus128 (dst : RegNum) : Statement (.adjustPlus128 dst) := assemble_special _ _ _ rfl

theorem reservedAdjustSel0 (dst : RegNum) : Statement (.reservedAdjustSel0 dst) := assemble_special _ _ _ rfl

theorem reservedAdjustSel1 (dst : RegNum) : Statement (.reservedAdjustSel1 dst) := assemble_special _ _ _ rfl

theorem reservedAdjustSel6 (dst : RegNum) : Statement (.reservedAdjustSel6 dst) := assemble_special _ _ _ rfl

theorem reservedAdjustSel7 (dst : RegNum) : Statement (.reservedAdjustSel7 dst) := assemble_special _ _ _ rfl

theorem reservedAdjustDst0 (src : RegNum) : Statement (.reservedAdjustDst0 src) := assemble_special _ _ _ rfl

theorem reservedPlusDst0 (src : RegNum) : Statement (.reservedPlusDst0 src) := assemble_special _ _ _ rfl

theorem cpuUndefined (access : CpuAccess) (dst : RegNum) (src : Config.ExtraReg) : Statement (.cpuUndefined access dst src) := by
  cases access <;> exact assemble_special _ _ _ rfl

theorem undefinedFn6 (dst : RegNum) (src : RegNum) : Statement (.undefinedFn6 dst src) := assemble_special _ _ _ rfl

theorem undefinedFn7 (dst : RegNum) (src : RegNum) : Statement (.undefinedFn7 dst src) := assemble_special _ _ _ rfl

end Sys2Proof.Laws.EncodesSpecial
end

