-- ==== Sys2Proof/Tests/Slice0.lean ====
section
/-! SUPPORT. Tests: the decoding of every constructor from a word written out from its encoding, the
checks of WellFormed, single steps from 95_test_vectors.md, and, for each statement for the provers,
a state and operands that meet its hypotheses. -/

namespace Sys2Proof.Tests

open Sys2Proof.Machine Sys2Proof.Config Sys2Proof.Safety

/-! ### Every constructor decodes from its word (30_encoding.md R56, R59, R62) -/

/-- D-CPU 0x0313. -/
theorem test_decode_cpuset : decode 0b0000001100010011#16 = .ok (.cpuset 3#4 .tsv) := by decide

/-- P4 0x0012. -/
theorem test_decode_cpuset_psw : decode 0b0000000000010010#16 = .ok (.cpuset 2#4 .psw) := by decide

/-- R70. -/
theorem test_decode_cpuset_cyc : decode 0b0000100000011111#16 = .ok (.cpuset 15#4 .cyc) := by decide

/-- D-CPU 0x1315. -/
theorem test_decode_cpuget : decode 0b0001001100010101#16 = .ok (.cpuget 5#4 .tsv) := by decide

/-- P2 0x1111. -/
theorem test_decode_cpuget_tpc : decode 0b0001000100010001#16 = .ok (.cpuget 1#4 .tpc) := by decide

/-- D-CPU 0x1310. -/
theorem test_decode_cpugetPc : decode 0b0001001100010000#16 = .ok (.cpugetPc .tsv) := by decide

/-- V9 0x1110. -/
theorem test_decode_rtt : decode 0b0001000100010000#16 = .ok (.rtt) := by decide

/-- V10 0x2013. -/
theorem test_decode_coset : decode 0b0010000000010011#16 = .ok (.coset 3#4 0#4) := by decide

/-- D-CO 0x2112. -/
theorem test_decode_coset_reg : decode 0b0010000100010010#16 = .ok (.coset 2#4 1#4) := by decide

/-- V10 0x3013. -/
theorem test_decode_cogetCostat : decode 0b0011000000010011#16 = .ok (.cogetCostat 3#4) := by decide

/-- D-CO 0x3114. -/
theorem test_decode_coget : decode 0b0011000100010100#16 = .ok (.coget 4#4 1#4) := by decide

/-- D-PLUS 0x4413. -/
theorem test_decode_plus : decode 0b0100010000010011#16 = .ok (.plus 3#4 4#4) := by decide

/-- V10 0x5213. -/
theorem test_decode_adjustBcd : decode 0b0101001000010011#16 = .ok (.adjustBcd 3#4) := by decide

/-- V10 0x5314. -/
theorem test_decode_adjustEx3 : decode 0b0101001100010100#16 = .ok (.adjustEx3 4#4) := by decide

/-- V10 0x5411. -/
theorem test_decode_adjustCmsb : decode 0b0101010000010001#16 = .ok (.adjustCmsb 1#4) := by decide

/-- V10 0x5513. -/
theorem test_decode_adjustSsq : decode 0b0101010100010011#16 = .ok (.adjustSsq 3#4) := by decide

/-- R82 0x5815. -/
theorem test_decode_adjustPlus1 : decode 0b0101100000010101#16 = .ok (.adjustPlus1 5#4) := by decide

/-- R83 0x5915. -/
theorem test_decode_adjustPlus2 : decode 0b0101100100010101#16 = .ok (.adjustPlus2 5#4) := by decide

/-- R84 0x5A13. -/
theorem test_decode_adjustPlus4 : decode 0b0101101000010011#16 = .ok (.adjustPlus4 3#4) := by decide

/-- R85 0x5B12. -/
theorem test_decode_adjustPlus8 : decode 0b0101101100010010#16 = .ok (.adjustPlus8 2#4) := by decide

/-- R86 0x5C12. -/
theorem test_decode_adjustPlus16 : decode 0b0101110000010010#16 = .ok (.adjustPlus16 2#4) := by decide

/-- R87 0x5D12. -/
theorem test_decode_adjustPlus32 : decode 0b0101110100010010#16 = .ok (.adjustPlus32 2#4) := by decide

/-- R88 0x5E12. -/
theorem test_decode_adjustPlus64 : decode 0b0101111000010010#16 = .ok (.adjustPlus64 2#4) := by decide

/-- R89 0x5F1F. -/
theorem test_decode_adjustPlus128 : decode 0b0101111100011111#16 = .ok (.adjustPlus128 15#4) := by decide

/-- D-ADJ 0x5013. -/
theorem test_decode_reservedAdjustSel0 : decode 0b0101000000010011#16 = .ok (.reservedAdjustSel0 3#4) := by decide

/-- D-ADJ 0x5113. -/
theorem test_decode_reservedAdjustSel1 : decode 0b0101000100010011#16 = .ok (.reservedAdjustSel1 3#4) := by decide

/-- D-ADJ 0x5613. -/
theorem test_decode_reservedAdjustSel6 : decode 0b0101011000010011#16 = .ok (.reservedAdjustSel6 3#4) := by decide

/-- D-ADJ 0x5713. -/
theorem test_decode_reservedAdjustSel7 : decode 0b0101011100010011#16 = .ok (.reservedAdjustSel7 3#4) := by decide

/-- D-ADJ 0x5210. -/
theorem test_decode_reservedAdjustDst0 : decode 0b0101001000010000#16 = .ok (.reservedAdjustDst0 2#4) := by decide

/-- D-PLUS 0x4410. -/
theorem test_decode_reservedPlusDst0 : decode 0b0100010000010000#16 = .ok (.reservedPlusDst0 4#4) := by decide

/-- D-CPU 0x1413. -/
theorem test_decode_cpuUndefined_get : decode 0b0001010000010011#16 = .ok (.cpuUndefined .get 3#4 (.mmu 0)) := by decide

/-- D-DEC 0x0F1F. -/
theorem test_decode_cpuUndefined_set : decode 0b0000111100011111#16 = .ok (.cpuUndefined .set 15#4 (.other 6)) := by decide

/-- D-DEC 0x6013. -/
theorem test_decode_undefinedFn6 : decode 0b0110000000010011#16 = .ok (.undefinedFn6 3#4 0#4) := by decide

/-- D-DEC 0x7013. -/
theorem test_decode_undefinedFn7 : decode 0b0111000000010011#16 = .ok (.undefinedFn7 3#4 0#4) := by decide

/-- D-DEC: I[15] = 1. -/
theorem test_decode_high_bit : decode 0x8013#16 = .error (.highBitSet 0x8013#16) := by decide

/-- D-DEC: I[7:4] = 0010. -/
theorem test_decode_other_op : decode 0x5223#16 = .error (.opNotSpecial 0x5223#16) := by decide

/-- D-DEC: bytes 13 52 in memory are ADJUST R3,BCD; swapped they are no special instruction. -/
theorem test_decode_byte_order :
    decodeBytes [0x13#8, 0x52#8] = .ok (.adjustBcd 3#4, [])
      ∧ decodeBytes [0x52#8, 0x13#8] = .error (.opNotSpecial 0x1352#16) := by decide

/-- One byte is no instruction. -/
theorem test_decode_too_short : decodeBytes [0x13#8] = .error .tooShort := by decide

/-- V10: the table word 0x3013. -/
theorem test_decode_table_word : decodeTableWord 16 0x3013 = some (.cogetCostat 3#4) := by decide

/-- R70: `enc` of RTT. -/
theorem test_encode_rtt : encodeBytes .rtt = [0x10#8, 0x11#8] := by decide

/-! ### WellFormed refuses an ill-formed term of each check -/

theorem test_ill_cpuget_dst0 : Instr.wellFormed (.cpuget 0#4 .tsv) = false := by decide

theorem test_ill_cpugetPc_tpc : Instr.wellFormed (.cpugetPc .tpc) = false := by decide

theorem test_ill_coget_src0 : Instr.wellFormed (.coget 3#4 0#4) = false := by decide

theorem test_ill_plus_dst0 : Instr.wellFormed (.plus 0#4 4#4) = false := by decide

theorem test_ill_adjustBcd_dst0 : Instr.wellFormed (.adjustBcd 0#4) = false := by decide

theorem test_ill_adjustEx3_dst0 : Instr.wellFormed (.adjustEx3 0#4) = false := by decide

theorem test_ill_adjustCmsb_dst0 : Instr.wellFormed (.adjustCmsb 0#4) = false := by decide

theorem test_ill_adjustSsq_dst0 : Instr.wellFormed (.adjustSsq 0#4) = false := by decide

theorem test_ill_adjustPlus1_dst0 : Instr.wellFormed (.adjustPlus1 0#4) = false := by decide

theorem test_ill_adjustPlus2_dst0 : Instr.wellFormed (.adjustPlus2 0#4) = false := by decide

theorem test_ill_adjustPlus4_dst0 : Instr.wellFormed (.adjustPlus4 0#4) = false := by decide

theorem test_ill_adjustPlus8_dst0 : Instr.wellFormed (.adjustPlus8 0#4) = false := by decide

theorem test_ill_adjustPlus16_dst0 : Instr.wellFormed (.adjustPlus16 0#4) = false := by decide

theorem test_ill_adjustPlus32_dst0 : Instr.wellFormed (.adjustPlus32 0#4) = false := by decide

theorem test_ill_adjustPlus64_dst0 : Instr.wellFormed (.adjustPlus64 0#4) = false := by decide

theorem test_ill_adjustPlus128_dst0 : Instr.wellFormed (.adjustPlus128 0#4) = false := by decide

theorem test_ill_reservedAdjustSel0_dst0 : Instr.wellFormed (.reservedAdjustSel0 0#4) = false := by decide

theorem test_ill_reservedAdjustSel1_dst0 : Instr.wellFormed (.reservedAdjustSel1 0#4) = false := by decide

theorem test_ill_reservedAdjustSel6_dst0 : Instr.wellFormed (.reservedAdjustSel6 0#4) = false := by decide

theorem test_ill_reservedAdjustSel7_dst0 : Instr.wellFormed (.reservedAdjustSel7 0#4) = false := by decide

theorem test_well_formed : Instr.wellFormed (.plus 3#4 0#4) = true := by decide

/-! ### Single steps from 95_test_vectors.md -/

/-- Whether an answer is a next state that passes a check. -/
def nextIs (r : Result) (check : State → Bool) : Bool :=
  match r with
  | .next t => check t
  | _ => false

/-- Whether an answer is a refusal for this reason. -/
def refusedAs (r : Result) (why : Refusal) : Bool :=
  match r with
  | .refused w => w == why
  | _ => false

/-- The machine after reset with its pc at 0x1000, one register set. -/
def small (r : RegNum) (v : Word) : State := { State.reset.setReg r v with pc := 0x1000 }

/-- `small` with a PSW. -/
def smallPsw (r : RegNum) (v : Word) (p : Psw) : State := { small r v with psw := p }

/-- A PSW with the given condition codes and BCD carries, at level 0. -/
def flags (n z v c : Bool) (bcdc : BitVec 8) : Psw :=
  { n := n, z := z, v := v, c := c, bcdc := bcdc, oldLevel := 0, level := 0 }

/-- A PSW with the given level fields, all else 0. -/
def levels (level oldLevel : Level) : Psw :=
  { n := false, z := false, v := false, c := false, bcdc := 0, oldLevel := oldLevel, level := level }

/-- The toy layout of D-CO: only coprocessor 1 is present. -/
def toyParams : Params :=
  { defaultParams with
    present := defaultPresent.set 0 true
    costatLayout := { defaultCostatLayout with implMask := 0x702 } }

/-- A machine with the toy layout, a COSTAT, and coprocessor 1 as many steps of its own from being
ready for every register. -/
def toy (costat : Word) (left : Nat) : State :=
  { State.resetWith toyParams with
    costat := costat, pc := 0x1000
    co := State.reset.co.set 0 { code := 5, left := Vector.replicate 16 left } }

/-- The toy layout meets the constraints of R106. -/
theorem toyParams_valid : ParamsValid toyParams := by
  refine ⟨by decide, by decide, ?_, fun v => ?_, by decide, by decide⟩
  · have one (b : Fin 32) (v : Word) (h : (bitIsSet b).value &&& 0x702#32 ≠ (bitIsSet b).value) :
        List.any [bitIsSet b] (meetsTest (v &&& 0x702#32)) = false := by
      simp only [List.any_cons, List.any_nil, meetsTest_and_false v _ _ h, Bool.or_self]
    intro k hk v
    match k with
    | 0 => exact absurd hk (by decide)
    | 1 => exact one 2 v (by decide)
    | 2 => exact one 3 v (by decide)
    | 3 => exact one 4 v (by decide)
    | 4 => exact one 5 v (by decide)
    | 5 => exact one 6 v (by decide)
    | 6 => exact one 7 v (by decide)
  · have field (n : Nat) : meetsTest (v &&& 0x702) (selectFieldIs n) = meetsTest v (selectFieldIs n) :=
      meetsTest_and v _ _ (show (0x702 : Word) &&& 0x700 = 0x700 by decide)
    simp only [coSelected, toyParams, defaultCostatLayout, List.find?_cons, List.find?_nil, field]

/-- `toy` as a Sparrowhawk. -/
def sparrowhawk : State := { toy 0x102 0 with cfg := { toyParams with hasCoprocessors := false } }

/-- The machine after reset under the policy that traps reserved words. -/
def trapping : State := State.resetWith { defaultParams with reservedPolicy := .trap }

/-- The machine after reset with CPU registers 4 and 15 implemented. -/
def withExtra : State :=
  State.resetWith { defaultParams with extraCpuRegs := [.mmu 0, .other 6] }

/-- D-ADJ: ADJUST R3,BCD. -/
theorem test_adjustBcd :
    nextIs (exec (.adjustBcd 3#4) (smallPsw 3#4 0x666666A7 (flags false false false false 1)))
      (fun t => t.reg 3#4 == 0x00000047 && t.pc == 0x1002) = true := by decide

/-- D-ADJ: one word addition, decision D9. -/
theorem test_adjustBcd_word :
    nextIs (exec (.adjustBcd 3#4) (smallPsw 3#4 0 (flags false false false false 0)))
      (fun t => t.reg 3#4 == 0x9999999A) = true := by decide

/-- V2: ADJUST R3,EX3. -/
theorem test_adjustEx3 :
    nextIs (exec (.adjustEx3 3#4) (smallPsw 3#4 0x666666A7 (flags false false false false 1)))
      (fun t => t.reg 3#4 == 0x3333337A) = true := by decide

/-- D-ADJ: EX3 with BCDC = 10101010 and x = 0. -/
theorem test_adjustEx3_mixed :
    nextIs (exec (.adjustEx3 3#4) (smallPsw 3#4 0 (flags false false false false 0xAA)))
      (fun t => t.reg 3#4 == 0x2D2D2D2D) = true := by decide

/-- D-ADJ: an addition, not an or. -/
theorem test_adjustCmsb :
    nextIs (exec (.adjustCmsb 1#4) (smallPsw 1#4 0x80000000 (flags false false false true 0)))
      (fun t => t.reg 1#4 == 0 && t.psw.c) = true := by decide

/-- D-ADJ: C = 0. -/
theorem test_adjustCmsb_clear :
    nextIs (exec (.adjustCmsb 1#4) (smallPsw 1#4 0x12345678 (flags true true true false 0)))
      (fun t => t.reg 1#4 == 0x12345678) = true := by decide

/-- D-ADJ: ADJUST R3,SSQ with N = V = 1. -/
theorem test_adjustSsq :
    nextIs (exec (.adjustSsq 3#4) (smallPsw 3#4 0x7FFFFFFF (flags true false true false 0)))
      (fun t => t.reg 3#4 == 0x80000000) = true := by decide

/-- V6: N = 1, V = 0. -/
theorem test_adjustSsq_n_only :
    nextIs (exec (.adjustSsq 3#4) (smallPsw 3#4 0xFFFFFFFE (flags true true false true 0)))
      (fun t => t.reg 3#4 == 0xFFFFFFFE) = true := by decide

/-- the corner case of ADJUST PLUS1, R82 to R89. -/
theorem test_adjustPlus1 :
    nextIs (exec (.adjustPlus1 2#4) (small 2#4 0xFFFFFFFF)) (fun t => t.reg 2#4 == 0 && t.pc == 0x1002) = true := by decide

/-- the corner case of ADJUST PLUS2, R82 to R89. -/
theorem test_adjustPlus2 :
    nextIs (exec (.adjustPlus2 2#4) (small 2#4 0xFFFFFFFF)) (fun t => t.reg 2#4 == 1 && t.pc == 0x1002) = true := by decide

/-- the corner case of ADJUST PLUS4, R82 to R89. -/
theorem test_adjustPlus4 :
    nextIs (exec (.adjustPlus4 2#4) (small 2#4 0xFFFFFFFC)) (fun t => t.reg 2#4 == 0 && t.pc == 0x1002) = true := by decide

/-- the corner case of ADJUST PLUS8, R82 to R89. -/
theorem test_adjustPlus8 :
    nextIs (exec (.adjustPlus8 2#4) (small 2#4 0xFFFFFFF8)) (fun t => t.reg 2#4 == 0 && t.pc == 0x1002) = true := by decide

/-- the corner case of ADJUST PLUS16, R82 to R89. -/
theorem test_adjustPlus16 :
    nextIs (exec (.adjustPlus16 2#4) (small 2#4 0xFFFFFFF0)) (fun t => t.reg 2#4 == 0 && t.pc == 0x1002) = true := by decide

/-- the corner case of ADJUST PLUS32, R82 to R89. -/
theorem test_adjustPlus32 :
    nextIs (exec (.adjustPlus32 2#4) (small 2#4 0xFFFFFFE0)) (fun t => t.reg 2#4 == 0 && t.pc == 0x1002) = true := by decide

/-- the corner case of ADJUST PLUS64, R82 to R89. -/
theorem test_adjustPlus64 :
    nextIs (exec (.adjustPlus64 2#4) (small 2#4 0x7FFFFFC0)) (fun t => t.reg 2#4 == 0x80000000 && t.pc == 0x1002) = true := by decide

/-- the corner case of ADJUST PLUS128, R82 to R89. -/
theorem test_adjustPlus128 :
    nextIs (exec (.adjustPlus128 2#4) (small 2#4 0xFFFFFF80)) (fun t => t.reg 2#4 == 0 && t.pc == 0x1002) = true := by decide

/-- D-PLUS: PLUS R3,R4. -/
theorem test_plus :
    nextIs (exec (.plus 3#4 4#4) ((small 3#4 0x00010000).setReg 4#4 0x2345))
      (fun t => t.reg 3#4 == 0x00012345 && t.reg 4#4 == 0x2345 && t.pc == 0x1002) = true := by decide

/-- D-PLUS: PLUS R5,R0 at 0xFFFFFFFE. -/
theorem test_plus_pc :
    nextIs (exec (.plus 5#4 0#4) { small 5#4 0x10 with pc := 0xFFFFFFFE })
      (fun t => t.reg 5#4 == 0x10 && t.pc == 0) = true := by decide

/-- D-CO: COSET R3,COSTAT masks. -/
theorem test_coset_costat :
    nextIs (exec (.coset 3#4 0#4) ((toy 0 0).setReg 3#4 0xFFFFFFFF)) (fun t => t.costat == 0x702) = true := by decide

/-- D-CO: COSET R2,1 with coprocessor 1 selected and not enabled. -/
theorem test_coset_disabled :
    nextIs (exec (.coset 2#4 1#4) (toy 0x100 0)) (fun t => t.pc == 0x50 && t.tpc == 0x1000) = true := by decide

/-- D-CO: COGET R3,COSTAT. -/
theorem test_coget_costat :
    nextIs (exec (.cogetCostat 3#4) { toy 0x702 0 with psw := flags true true true true 0 })
      (fun t => t.reg 3#4 == 0x702 && t.psw == flags false false false false 0) = true := by decide

/-- D-CO: COGET R0,COSTAT with COSTAT = 0. -/
theorem test_coget_costat_zero :
    nextIs (exec (.cogetCostat 0#4) { toy 0 0 with psw := flags true false true true 0 })
      (fun t => t.psw == flags false true false false 0 && t.pc == 0x1002) = true := by decide

/-- D-CO: COGET R4,1 with coprocessor 7 selected. -/
theorem test_coget_absent :
    nextIs (exec (.coget 4#4 1#4) (toy 0x702 0)) (fun t => t.pc == 0x50 && t.psw.level == 0) = true := by decide

/-- R112: not ready, completes after the hold. -/
theorem test_coget_waits :
    nextIs (exec (.coget 4#4 1#4) (toy 0x102 3)) (fun t => t.pc == 0x1002 && t.costat == 0x102) = true := by decide

/-- D-CO: COGET R3,COSTAT on a Sparrowhawk. -/
theorem test_sparrowhawk :
    nextIs (exec (.cogetCostat 3#4) sparrowhawk) (fun t => t.pc == 0x20 && t.tpc == 0x1000) = true := by decide

/-- D-CPU: CPUSET R3,TSV. -/
theorem test_cpuset_tsv :
    nextIs (exec (.cpuset 3#4 .tsv) (small 3#4 0x12345678)) (fun t => t.tsv == 0x12345678 && t.pc == 0x1002) = true := by decide

/-- D-CPU: CPUSET R2,PSW. -/
theorem test_cpuset_psw :
    nextIs (exec (.cpuset 2#4 .psw) (small 2#4 0xFFFFFFFF))
      (fun t => t.psw == { flags true true true true 0xFF with level := 0xF, oldLevel := 0xF }) = true := by decide

/-- D-CPU: CPUGET R5,TSV at level 1111. -/
theorem test_cpuget_tsv_traps :
    nextIs (exec (.cpuget 5#4 .tsv) (smallPsw 5#4 7 (levels 0xF 3)))
      (fun t => t.tpc == 0x1000 && t.psw == levels 0 0xF && t.pc == 0x30 && t.reg 5#4 == 7) = true := by decide

/-- D-CPU: CPUGET R2,PSW. -/
theorem test_cpuget_psw :
    nextIs (exec (.cpuget 2#4 .psw)
        (smallPsw 2#4 0 { flags true false false true 5 with level := 3, oldLevel := 0xF }))
      (fun t => t.reg 2#4 == 0x3F000509) = true := by decide

/-- D-CPU: CPUGET R0,TSV. -/
theorem test_cpuget_pc :
    nextIs (exec (.cpugetPc .tsv) { smallPsw 1#4 0 (levels 0 0xF) with tsv := 0x4000 })
      (fun t => t.pc == 0x4000 && t.psw == levels 0xF 0xF) = true := by decide

/-- D-CPU: RTT. -/
theorem test_rtt :
    nextIs (exec .rtt { smallPsw 1#4 0 (levels 0 0xF) with tpc := 0x2000 })
      (fun t => t.pc == 0x2000 && t.psw == levels 0xF 0xF && t.tpc == 0x2000) = true := by decide

/-- D-ADJ: 0x5013 under the default policy. -/
theorem test_reserved_refused :
    refusedAs (exec (.reservedAdjustSel0 3#4) State.reset) .reservedAdjustSelector = true := by decide

/-- R90: under the policy trap. -/
theorem test_reserved_traps :
    nextIs (exec (.reservedPlusDst0 4#4) trapping) (fun t => t.pc == 0x20) = true := by decide

/-- D-CPU: 0x1413 at level 0000. -/
theorem test_cpuUndefined_refused :
    refusedAs (exec (.cpuUndefined .get 3#4 (.mmu 0)) State.reset) .undefinedCpuRegister = true := by decide

/-- D-CPU: 0x1413 at level 1111. -/
theorem test_cpuUndefined_privilege :
    nextIs (exec (.cpuUndefined .get 3#4 (.mmu 0)) (smallPsw 3#4 0 (levels 0xF 0))) (fun t => t.pc == 0x30) = true := by decide

/-- R63: refused. -/
theorem test_undefined_fn :
    refusedAs (exec (.undefinedFn6 3#4 0#4) State.reset) .undefinedFunctionCode = true := by decide

/-- decision D2: an odd pc is refused. -/
theorem test_step_odd :
    refusedAs (step { State.reset with pc := 0x2001 }) .oddPc = true := by decide

/-- D-TRAP: MemoryAddressing. -/
theorem test_step_unadmitted :
    nextIs (step { State.reset with pc := 0x2000, psw := levels 0xF 5 })
      (fun t => t.tpc == 0x2000 && t.tma == 0x2000 && t.psw == levels 0 0xF && t.pc == 0x10) = true := by decide

/-- the placed word 0x5815 runs first after reset. -/
theorem test_step_placed :
    nextIs (step (State.reset.withFetchWord 16 0x5815)) (fun t => t.reg 5#4 == 1 && t.pc == 2) = true := by decide

/-- R63 b: 0x8013 is refused. -/
theorem test_step_other_word :
    refusedAs (step (State.reset.withFetchWord 16 0x8013)) (.notSpecialInstruction 0x8013#16) = true := by decide

/-! ### The hypotheses of the statements are met -/

theorem witness_AdjustPowersOfTwoAdd :
    ∃ (dst : RegNum) (_s : State), dst ≠ 0#4 :=
  ⟨15#4, small 15#4 0xFFFFFFFF, by decide⟩

theorem witness_AdjustCmsbAddsCarryToTopBit :
    ∃ (dst : RegNum) (_s : State), dst ≠ 0#4 :=
  ⟨15#4, small 15#4 0xFFFFFFFF, by decide⟩

theorem witness_AdjustSsqAddsNAndV :
    ∃ (dst : RegNum) (_s : State), dst ≠ 0#4 :=
  ⟨15#4, small 15#4 0xFFFFFFFF, by decide⟩

theorem witness_AdjustBcdSubtractsSixPerClearCarry :
    ∃ (dst : RegNum) (_s : State), dst ≠ 0#4 :=
  ⟨15#4, small 15#4 0xFFFFFFFF, by decide⟩

theorem witness_AdjustEx3AddsOrSubtractsThree :
    ∃ (dst : RegNum) (_s : State), dst ≠ 0#4 :=
  ⟨15#4, small 15#4 0xFFFFFFFF, by decide⟩

theorem witness_AdjustBcdActsNibblewise :
    ∃ (dst : RegNum) (s : State), dst ≠ 0#4
      ∧ ∀ i < 8, s.psw.bcdc.getLsbD i = false → 6 ≤ nibble (s.reg dst) i :=
  ⟨3#4, smallPsw 3#4 0x666666A7 (flags false false false false 1), by decide, by decide⟩

theorem witness_AdjustEx3ActsNibblewise :
    ∃ (dst : RegNum) (s : State), dst ≠ 0#4
      ∧ ∀ i < 8, if s.psw.bcdc.getLsbD i then nibble (s.reg dst) i ≤ 12 else 3 ≤ nibble (s.reg dst) i :=
  ⟨3#4, smallPsw 3#4 0x3F3F3C3C (flags false false false false 0x01), by decide, by decide⟩

theorem witness_AdjustBcdCorrectsDecimalSum :
    ∃ (dst : RegNum) (s : State) (x y : Word), dst ≠ 0#4 ∧ IsBcd x ∧ IsBcd y
      ∧ s.reg dst = x + 0x66666666#32 + y
      ∧ ∀ i < 8, s.psw.bcdc.getLsbD i = true ↔
        16 ^ (i + 1) ≤ (x + 0x66666666#32).toNat % 16 ^ (i + 1) + y.toNat % 16 ^ (i + 1) :=
  ⟨3#4, smallPsw 3#4 0x66667002 (flags false false false false 7), 0x995#32, 0x7#32, by decide,
    by unfold IsBcd; decide, by unfold IsBcd; decide, by decide, by decide⟩

theorem witness_AdjustEx3CorrectsDecimalSum :
    ∃ (dst : RegNum) (s : State) (x y : Word), dst ≠ 0#4 ∧ IsExcess3 x ∧ IsExcess3 y
      ∧ s.reg dst = x + y
      ∧ ∀ i < 8, s.psw.bcdc.getLsbD i = true ↔
        16 ^ (i + 1) ≤ x.toNat % 16 ^ (i + 1) + y.toNat % 16 ^ (i + 1) :=
  ⟨3#4, smallPsw 3#4 0x66667002 (flags false false false false 7), 0x33333CC8#32, 0x3333333A#32,
    by decide, by unfold IsExcess3; decide, by unfold IsExcess3; decide, by decide, by decide⟩

theorem witness_PlusAddsRegister :
    ∃ (dst src : RegNum) (_s : State), dst ≠ 0#4 ∧ src ≠ 0#4 :=
  ⟨6#4, 6#4, small 6#4 0x80000001, by decide, by decide⟩

theorem witness_PlusOfZeroAddsProgramCounter :
    (∃ (dst : RegNum) (s : State), dst ≠ 0#4 ∧ s.cfg.pcOperandOffset = .nextInstruction)
      ∧ ∃ (dst : RegNum) (s : State), dst ≠ 0#4 ∧ s.cfg.pcOperandOffset = .thisInstruction :=
  ⟨⟨5#4, { small 5#4 0x10 with pc := 0xFFFFFFFE }, by decide, rfl⟩,
    ⟨5#4, State.resetWith { defaultParams with pcOperandOffset := .thisInstruction }, by decide, rfl⟩⟩

theorem witness_ReservedWordsFollowPolicy :
    (∃ s : State, s.cfg.reservedPolicy = .trap) ∧ ∃ s : State, s.cfg.reservedPolicy = .refuse :=
  ⟨⟨trapping, rfl⟩, ⟨State.reset, rfl⟩⟩

theorem witness_CpugetCopiesSpecialRegister :
    (∃ (dst : RegNum) (s : State), dst ≠ 0#4 ∧ s.psw.level = 0xF#4)
      ∧ ∃ (dst : RegNum) (s : State), dst ≠ 0#4 ∧ s.psw.level ≠ 0xF#4 :=
  ⟨⟨15#4, smallPsw 1#4 0 (levels 0xF 0), by decide, rfl⟩,
    ⟨15#4, smallPsw 1#4 0 (levels 0xE 0xF), by decide, by decide⟩⟩

theorem witness_CpugetPswHasFieldsAtTheirPositions :
    ∃ (dst : RegNum) (s : State), dst ≠ 0#4 ∧ s.psw.level ≠ unprivilegedLevel :=
  ⟨15#4, smallPsw 1#4 0 (levels 0xE 0xF), by decide, by decide⟩

theorem witness_CpugetPswUnderDefaultLayout :
    ∃ (dst : RegNum) (s : State), dst ≠ 0#4 ∧ s.psw.level ≠ unprivilegedLevel
      ∧ s.cfg.pswLayout = defaultPswLayout :=
  ⟨15#4, smallPsw 1#4 0 (levels 0xE 0xF), by decide, by decide, rfl⟩

theorem witness_CpugetOfZeroLoadsPcAndRestoresLevel :
    ∃ s : State, s.psw.level ≠ unprivilegedLevel :=
  ⟨smallPsw 1#4 0 (levels 0xE 0xF), by decide⟩

theorem witness_CpusetCycCompletes :
    ∃ s : State, s.psw.level ≠ unprivilegedLevel :=
  ⟨smallPsw 1#4 0 (levels 0xE 0xF), by decide⟩

theorem witness_RttReturnsFromTrap :
    (∃ s : State, s.psw.level = 0xF#4) ∧ ∃ s : State, s.psw.level ≠ 0xF#4 :=
  ⟨⟨smallPsw 1#4 0 (levels 0xF 0), rfl⟩, ⟨smallPsw 1#4 0 (levels 0xE 0xF), by decide⟩⟩

theorem witness_CpusetWritesTrapRegisters :
    (∃ (srcx : RegNum) (s : State) (v : Word), s.psw.level ≠ unprivilegedLevel
        ∧ srcx = 0#4 ∧ v = 0#32)
      ∧ ∃ (srcx : RegNum) (s : State) (v : Word), s.psw.level ≠ unprivilegedLevel
        ∧ srcx ≠ 0#4 ∧ v = s.reg srcx :=
  ⟨⟨0#4, smallPsw 1#4 0 (levels 0xE 0xF), 0#32, by decide, rfl, rfl⟩,
    ⟨15#4, smallPsw 15#4 0x12345678 (levels 0xE 0xF), _, by decide, by decide, rfl⟩⟩

theorem witness_CpusetPswWritesEveryField :
    ∃ (srcx : RegNum) (s : State) (v : Word), s.psw.level ≠ unprivilegedLevel
      ∧ v = (if srcx = 0#4 then 0#32 else s.reg srcx) &&& s.cfg.pswImplMask :=
  ⟨2#4, small 2#4 0xFFFFFFFF, _, by decide, rfl⟩

theorem witness_PrivilegedInstructionsTrapAtLevel15 :
    ∃ s : State, s.psw.level = 0xF#4 :=
  ⟨smallPsw 1#4 0 (levels 0xF 3), rfl⟩

theorem witness_PswWordRoundTrip :
    PswLayoutValid defaultPswLayout defaultPswImplMask :=
  by decide

theorem witness_SuppliedExtraRegistersAreReadAndWritten :
    ∃ (f : RegNum) (x : ExtraReg) (s : State), s.psw.level ≠ unprivilegedLevel
      ∧ x ∈ s.cfg.extraCpuRegs ∧ f ≠ 0#4 :=
  ⟨3#4, .other 6, withExtra, by decide, by decide, by decide⟩

theorem witness_MissingSpecialRegistersFollowPolicy :
    (∃ (x : ExtraReg) (s : State), s.psw.level ≠ unprivilegedLevel ∧ x ∉ s.cfg.extraCpuRegs
        ∧ s.cfg.reservedPolicy = .refuse)
      ∧ ∃ (x : ExtraReg) (s : State), s.psw.level ≠ unprivilegedLevel ∧ x ∉ s.cfg.extraCpuRegs
        ∧ s.cfg.reservedPolicy = .trap :=
  ⟨⟨.mmu 3, withExtra, by decide, by decide, rfl⟩, ⟨.other 0, trapping, by decide, by decide, rfl⟩⟩

theorem witness_CosetWritesCostat :
    ∃ s : State, s.cfg.hasCoprocessors = true :=
  ⟨toy 0 0, rfl⟩

theorem witness_CosetWritesSelectedCoprocessor :
    ∃ (src : RegNum) (k : CoId) (s : State), s.cfg.hasCoprocessors = true ∧ src ≠ 0#4
      ∧ coSelected s.cfg.costatLayout (costatValue s) = some k ∧ s.cfg.present[k.val] = true
      ∧ coEnabled s.cfg.costatLayout (costatValue s) k = true :=
  ⟨15#4, 0, toy 0x102 0, rfl, by decide, by decide, by decide, by decide⟩

/-- `toy` under `COGET_DST0 = refuse`. -/
def refusingDst0 : State := { toy 0x102 0 with cfg := { toyParams with cogetDst0 := .refuse } }

theorem witness_CogetReadsCostat :
    (∃ (dst : RegNum) (s : State), s.cfg.hasCoprocessors = true ∧ dst ≠ 0#4)
      ∧ (∃ (dst : RegNum) (s : State), s.cfg.hasCoprocessors = true ∧ dst = 0#4
        ∧ s.cfg.cogetDst0 = .discard)
      ∧ ∃ (dst : RegNum) (s : State), s.cfg.hasCoprocessors = true ∧ dst = 0#4
        ∧ s.cfg.cogetDst0 = .refuse :=
  ⟨⟨3#4, toy 0x702 0, rfl, by decide⟩, ⟨0#4, toy 0 0, rfl, rfl, rfl⟩, ⟨0#4, refusingDst0, rfl, rfl, rfl⟩⟩

theorem witness_CogetReadsReadyCoprocessor :
    (∃ (dst src : RegNum) (s : State), s.cfg.hasCoprocessors = true ∧ src ≠ 0#4 ∧ dst = 0#4
        ∧ s.cfg.cogetDst0 = .refuse)
      ∧ ∃ (dst src : RegNum) (k : CoId) (s : State), s.cfg.hasCoprocessors = true ∧ src ≠ 0#4
      ∧ dst ≠ 0#4 ∧ coSelected s.cfg.costatLayout (costatValue s) = some k
      ∧ s.cfg.present[k.val] = true ∧ coEnabled s.cfg.costatLayout (costatValue s) k = true
      ∧ coReady s.co[k.val] src = true :=
  ⟨⟨0#4, 1#4, refusingDst0, rfl, by decide, rfl, rfl⟩,
    ⟨4#4, 15#4, 0, toy 0x102 0, rfl, by decide, by decide, by decide, by decide, by decide, by decide⟩⟩

theorem witness_CogetWaitsUntilReady :
    ∃ (dst src : RegNum) (k : CoId) (s : State), s.cfg.hasCoprocessors = true ∧ src ≠ 0#4
      ∧ dst ≠ 0#4 ∧ coOk s = some k ∧ coReady s.co[k.val] src = false :=
  ⟨4#4, 1#4, 0, toy 0x102 3, rfl, by decide, by decide, by decide, by decide⟩

theorem witness_UnusableCoprocessorTraps :
    (∃ (src : RegNum) (s : State), s.cfg.hasCoprocessors = true ∧ src ≠ 0#4
        ∧ coSelected s.cfg.costatLayout (costatValue s) = none)
      ∧ (∃ (src : RegNum) (k : CoId) (s : State), s.cfg.hasCoprocessors = true ∧ src ≠ 0#4
        ∧ coSelected s.cfg.costatLayout (costatValue s) = some k ∧ s.cfg.present[k.val] = false)
      ∧ ∃ (src : RegNum) (k : CoId) (s : State), s.cfg.hasCoprocessors = true ∧ src ≠ 0#4
        ∧ coSelected s.cfg.costatLayout (costatValue s) = some k
        ∧ coEnabled s.cfg.costatLayout (costatValue s) k = false :=
  ⟨⟨1#4, toy 0 0, rfl, by decide, by decide⟩, ⟨1#4, 6, toy 0x702 0, rfl, by decide, by decide, by decide⟩,
    ⟨1#4, 0, toy 0x100 0, rfl, by decide, by decide, by decide⟩⟩

theorem witness_SparrowhawkCoprocessorInstructionsTrap :
    ∃ s : State, s.cfg.hasCoprocessors = false :=
  ⟨sparrowhawk, rfl⟩

theorem witness_CostatReadsBackImplementedBits :
    ∃ (dst : RegNum) (s : State), s.cfg.hasCoprocessors = true ∧ dst ≠ 0#4 :=
  ⟨3#4, toy 0 0, rfl, by decide⟩

theorem witness_CosetOfZeroDeselects :
    ∃ (f src : RegNum) (s : State), Inv s ∧ s.cfg.hasCoprocessors = true ∧ src ≠ 0#4
      ∧ (f ≠ 0#4 ∨ s.cfg.cogetDst0 = .discard) :=
  ⟨0#4, 1#4, toy 0x102 0, ⟨by decide, toyParams_valid, by decide⟩, rfl, by decide, .inr rfl⟩

theorem witness_AbsentCoprocessorIsNeverEnabled :
    ∃ (k : CoId) (s : State), Inv s ∧ s.cfg.present[k.val] = false :=
  ⟨6, toy 0x702 0, ⟨by decide, toyParams_valid, by decide⟩, by decide⟩

theorem witness_RttUndoesTrapEntry :
    ∃ s : State, s.cfg.tpcOffset = .thisInstruction ∧ s.cfg.trapLevel ≠ unprivilegedLevel :=
  ⟨smallPsw 1#4 0 (levels 0xF 3), rfl, by decide⟩

theorem witness_StepRunsDecodedInstruction :
    ∃ (s : State) (lower higher : Byte) (i : Instr), s.pc[0] = false
      ∧ Memory.readByte s.mem s.pc.toNat = some lower
      ∧ Memory.readByte s.mem (s.pc + 1#32).toNat = some higher
      ∧ decode (higher ++ lower) = .ok i :=
  ⟨{ State.reset with pc := 0xFFFFFFFE, mem := [(0xFFFFFFFE, 0x13), (0xFFFFFFFF, 0x5A)] }, 0x13, 0x5A,
    .adjustPlus4 3#4, by decide, by decide, by decide, by decide⟩

theorem witness_StepTrapsOnUnadmittedFetch :
    (∃ (s : State) (va : Word), s.pc[0] = false ∧ va = s.pc ∧ Memory.readByte s.mem s.pc.toNat = none)
      ∧ ∃ (s : State) (va : Word), s.pc[0] = false ∧ va = s.pc + 1#32
        ∧ (∃ b, Memory.readByte s.mem s.pc.toNat = some b)
        ∧ Memory.readByte s.mem (s.pc + 1#32).toNat = none :=
  ⟨⟨State.reset, 0, by decide, rfl, by decide⟩,
    ⟨{ State.reset with pc := 0xFFFFFFFE, mem := [(0xFFFFFFFE, 0x13)] }, 0xFFFFFFFF, by decide, by decide,
      ⟨0x13, by decide⟩, by decide⟩⟩

theorem witness_StepRefusesOddPcAndOtherWords :
    (∃ s : State, s.pc[0] = true)
      ∧ (∃ (s : State) (lower higher : Byte), s.pc[0] = false
        ∧ Memory.readByte s.mem s.pc.toNat = some lower
        ∧ Memory.readByte s.mem (s.pc + 1#32).toNat = some higher ∧ lower.extractLsb' 4 4 ≠ 1#4)
      ∧ ∃ (s : State) (lower higher : Byte), s.pc[0] = false
        ∧ Memory.readByte s.mem s.pc.toNat = some lower
        ∧ Memory.readByte s.mem (s.pc + 1#32).toNat = some higher ∧ higher[7] = true :=
  ⟨⟨{ State.reset with pc := 0x2001 }, by decide⟩,
    ⟨{ State.reset with mem := [(0, 0x23), (1, 0x52)] }, 0x23, 0x52, by decide, by decide, by decide, by decide⟩,
    ⟨{ State.reset with mem := [(0, 0x13), (1, 0x80)] }, 0x13, 0x80, by decide, by decide, by decide, by decide⟩⟩

theorem witness_EveryOtherStepHasNextState :
    ∃ (s : State) (lo hi : Byte), s.cfg.reservedPolicy = .trap ∧ s.cfg.cogetDst0 = .discard
      ∧ s.pc[0] = false ∧ Memory.readByte s.mem s.pc.toNat = some lo
      ∧ Memory.readByte s.mem (s.pc + 1#32).toNat = some hi
      ∧ lo.extractLsb' 4 4 = 1#4 ∧ (hi.extractLsb' 4 4).toNat < 6 :=
  ⟨{ trapping with mem := [(0, 0x1F), (1, 0x5F)] }, 0x1F, 0x5F, rfl, rfl, by decide, by decide, by decide, by decide,
    by decide⟩

theorem witness_RunEndsAtEndPcOrOtherWord :
    (∃ (endPc : Word) (s : State), s.pc = endPc)
      ∧ ∃ (s : State) (w : Half), step s = .refused (.notSpecialInstruction w) :=
  ⟨⟨0, State.reset, rfl⟩, ⟨State.reset.withFetchWord 16 0x8013, 0x8013, rfl⟩⟩

theorem witness_PlacedWordIsTheOneRun :
    ∃ (s : State) (w : Half) (i : Instr), s.pc[0] = false ∧ decode w = .ok i :=
  ⟨{ State.reset with pc := 0xFFFFFFFE }, 0x1110#16, .rtt, by decide, by decide⟩

theorem witness_DecodeEncodeRoundTrip :
    ∃ i : Instr, i.wellFormed = true :=
  ⟨.cpuUndefined .get 15#4 (.other 6), by decide⟩

theorem witness_EncodeOfDecodedWord :
    ∃ (w : Half) (i : Instr), decode w = .ok i :=
  ⟨0x7F1F#16, .undefinedFn7 15#4 15#4, by decide⟩

theorem witness_EveryStepKeepsInvariant :
    ∃ s t : State, Inv s ∧ step s = .next t :=
  ⟨{ toy 0x702 0 with mem := [(0x1000, 0x13), (0x1001, 0x20)] }, _,
    ⟨by decide, toyParams_valid, by decide⟩, rfl⟩

theorem witness_OnlyCpusetChangesTsv :
    (∃ s t : State, step s = .next t)
      ∧ (∃ (srcx : RegNum) (s : State), srcx ≠ 0#4 ∧ s.psw.level ≠ unprivilegedLevel)
      ∧ ∃ (dst : RegNum) (s : State), dst = 0#4 ∧ s.psw.level ≠ unprivilegedLevel :=
  ⟨⟨{ small 3#4 7 with mem := [(0x1000, 0x13), (0x1001, 0x03)] }, _, rfl⟩,
    ⟨15#4, small 15#4 7, by decide, by decide⟩, ⟨0#4, State.reset, rfl, by decide⟩⟩

theorem witness_OnlyCogetAndCpusetPswWriteNzvc :
    (∃ (i : Instr) (s t : State), exec i s = .next t ∧ (∀ dst, i ≠ .cogetCostat dst)
        ∧ (∀ dst src, i ≠ .coget dst src) ∧ ∀ srcx, i ≠ .cpuset srcx .psw)
      ∧ ∃ s t : State, step s = .next t :=
  ⟨⟨.cpuset 3#4 .tpc, State.reset, _, rfl, by simp, by simp, by simp⟩, ⟨State.reset, _, rfl⟩⟩

theorem witness_OnlyCpusetPswWritesBcdCarries :
    (∃ (i : Instr) (s t : State), exec i s = .next t ∧ ∀ srcx, i ≠ .cpuset srcx .psw)
      ∧ ∃ s t : State, step s = .next t :=
  ⟨⟨.cogetCostat 3#4, toy 0x702 0, _, rfl, by simp⟩, ⟨State.reset, _, rfl⟩⟩

theorem witness_OnlyCosetWritesCostat :
    (∃ (i : Instr) (s t : State), exec i s = .next t ∧ ∀ srcx, i ≠ .coset srcx 0#4)
      ∧ ∃ s t : State, step s = .next t :=
  ⟨⟨.coset 3#4 1#4, toy 0x102 0, _, rfl, by simp⟩, ⟨State.reset, _, rfl⟩⟩

theorem witness_NoStepWritesMemoryOrParameters :
    ∃ s t : State, step s = .next t :=
  ⟨State.reset, _, rfl⟩

theorem witness_UnprivilegedCodeOnlyLeavesByTrap :
    ∃ s t : State, s.psw.level = 0xF#4 ∧ step s = .next t :=
  ⟨{ smallPsw 3#4 7 (levels 0xF 3) with mem := [(0x1000, 0x13), (0x1001, 0x5A)] }, _, rfl, rfl⟩

theorem witness_DecodeFollowsOpcodeMap :
    decode 0x0010#16 = .ok (.cpuset 0#4 .psw) ∧ decode 0x1010#16 = .ok (.cpugetPc .psw)
      ∧ decode 0x2F1F#16 = .ok (.coset 15#4 15#4) ∧ decode 0x3010#16 = .ok (.cogetCostat 0#4)
      ∧ decode 0x4F1F#16 = .ok (.plus 15#4 15#4) ∧ decode 0x5F1F#16 = .ok (.adjustPlus128 15#4)
      ∧ decode 0x6010#16 = .ok (.undefinedFn6 0#4 0#4)
      ∧ decode 0x7F1F#16 = .ok (.undefinedFn7 15#4 15#4) := by decide

theorem witness_OtherInstructionsAreLevelBlind :
    ∃ (i : Instr) (s t : State), exec i s = .next t ∧ (∀ r x, i ≠ .cpuset r x)
      ∧ (∀ r x, i ≠ .cpuget r x) ∧ (∀ x, i ≠ .cpugetPc x) ∧ i ≠ .rtt
      ∧ ∀ a r x, i ≠ .cpuUndefined a r x :=
  ⟨.cogetCostat 3#4, toy 0x702 0, _, rfl, by simp, by simp, by simp, by simp, by simp⟩

end Sys2Proof.Tests
end

section
/-! PROOFS. ADJUST as one addition to one register (41_adjust.md R76), and the statements about its
powers of two, CMSB and SSQ. -/

namespace Sys2Proof.Proofs.Adjust

open Sys2Proof.Machine Sys2Proof.Safety

/-! ### A register write and the move to the next instruction -/

/-- Every register but the one written reads as before. -/
theorem sameRegsExcept_setReg_advance (s : State) (dst : RegNum) (v : Word) :
    SameRegsExcept s (s.setReg dst v).advance dst := by
  intro r hr
  rw [advance_reg, reg_setReg_other s dst r v hr]

/-- A register write and the move to the next instruction touch registers and pc alone. -/
theorem sameBeyondRegsAndPsw_setReg_advance (s : State) (dst : RegNum) (v : Word) :
    SameBeyondRegsAndPsw s (s.setReg dst v).advance := by
  simp [SameBeyondRegsAndPsw, SameSpecial, SameCoprocessors, SameMemory]

/-! ### The adjustments as numbers -/

/-- The selectors `8 + k` add `2 ^ k` (30_encoding.md R59). -/
theorem adjPlus_toNat (k : Nat) (hk : k < 32) : (adjPlus k).toNat = 2 ^ k :=
  BitVec.toNat_twoPow_of_lt hk

/-- CMSB adds the bit C at the position of bit 31 (41_adjust.md R80). -/
theorem adjCmsb_toNat (p : Psw) : (adjCmsb p).toNat = if p.c then 2 ^ 31 else 0 := by
  unfold adjCmsb
  cases p.c <;> rfl

/-- SSQ adds the bit `N & V` (41_adjust.md R81). -/
theorem adjSsq_toNat (p : Psw) : (adjSsq p).toNat = if p.n ∧ p.v then 1 else 0 := by
  unfold adjSsq
  cases p.n <;> cases p.v <;> rfl

/-! ### ADJUST adds to one register and changes nothing else -/

/-- An instruction that executes as ADJUST with the adjustment `a` adds `a` to its register. -/
theorem addsToRegister_of_exec_eq_adjust {i : Instr} {s : State} {dst : RegNum} {a : Word}
    (he : exec i s = adjust a dst s) (hd : dst ≠ 0#4) : AddsToRegister i s dst a.toNat := by
  rcases adjust_cases a dst s with ⟨h0, _⟩ | ⟨_, hnext⟩
  · exact absurd h0 hd
  · refine ⟨(s.setReg dst (s.reg dst + a)).advance, he.trans hnext, ?_, by simp,
      sameRegsExcept_setReg_advance s dst _, by simp, sameBeyondRegsAndPsw_setReg_advance s dst _⟩
    rw [advance_reg, reg_setReg_same s dst _ hd, BitVec.toNat_add]

/-- An instruction that executes as ADJUST with the selector `8 + k` adds `2 ^ k`. -/
theorem addsToRegister_of_exec_eq_adjustPlus {i : Instr} {s : State} {dst : RegNum} (k : Nat)
    (he : exec i s = adjust (adjPlus k) dst s) (hd : dst ≠ 0#4) (hk : k < 32) :
    AddsToRegister i s dst (2 ^ k) :=
  adjPlus_toNat k hk ▸ addsToRegister_of_exec_eq_adjust he hd

/-! ### The statements -/

/-- Settles O1: each ADJUST dst,PLUSn is ADJUST with the selector `8 + k` for `n = 2 ^ k`. -/
theorem adjustPowersOfTwoAdd : Obligations.AdjustPowersOfTwoAdd := by
  intro dst s hd
  exact ⟨⟨rfl, addsToRegister_of_exec_eq_adjustPlus 0 rfl hd (by decide)⟩,
    ⟨rfl, addsToRegister_of_exec_eq_adjustPlus 1 rfl hd (by decide)⟩,
    ⟨rfl, addsToRegister_of_exec_eq_adjustPlus 2 rfl hd (by decide)⟩,
    ⟨rfl, addsToRegister_of_exec_eq_adjustPlus 3 rfl hd (by decide)⟩,
    ⟨rfl, addsToRegister_of_exec_eq_adjustPlus 4 rfl hd (by decide)⟩,
    ⟨rfl, addsToRegister_of_exec_eq_adjustPlus 5 rfl hd (by decide)⟩,
    ⟨rfl, addsToRegister_of_exec_eq_adjustPlus 6 rfl hd (by decide)⟩,
    ⟨rfl, addsToRegister_of_exec_eq_adjustPlus 7 rfl hd (by decide)⟩⟩

/-- Settles O2: ADJUST with the adjustment `adjCmsb`, whose number is `C * 2 ^ 31`. -/
theorem adjustCmsbAddsCarryToTopBit : Obligations.AdjustCmsbAddsCarryToTopBit := by
  intro dst s hd
  refine ⟨rfl, ?_⟩
  rw [← adjCmsb_toNat s.psw]
  exact addsToRegister_of_exec_eq_adjust rfl hd

/-- Settles O3: ADJUST with the adjustment `adjSsq`, which is 1 exactly when N and V are. -/
theorem adjustSsqAddsNAndV : Obligations.AdjustSsqAddsNAndV := by
  intro dst s hd
  refine ⟨rfl, ?_⟩
  rw [← adjSsq_toNat s.psw]
  exact addsToRegister_of_exec_eq_adjust rfl hd

end Sys2Proof.Proofs.Adjust
end

section
/-! PROOFS. The unprivileged instructions do not look at the level (43_coprocessor.md R117,
60_exceptions.md R160). A change of the two level fields passes through every state update they use;
trap entry alone writes these fields, from them and the parameters, and nothing else from them. -/

namespace Sys2Proof.Proofs.Levels

open Sys2Proof.Machine

/-! ### A change of the two level fields -/

/-- The state with other values in the two level fields of the PSW. -/
def withLevels (s : State) (l o : Level) : State :=
  { s with psw := { s.psw with level := l, oldLevel := o } }

@[simp] theorem withLevels_cfg (s : State) (l o : Level) : (withLevels s l o).cfg = s.cfg := rfl

/-- The access check looks at COSTAT and the parameters alone (43_coprocessor.md R108). -/
@[simp] theorem coOk_withLevels (s : State) (l o : Level) : coOk (withLevels s l o) = coOk s := rfl

/-- A meaning is level-blind when, from a state with other levels, it answers the same next state up
to the two level fields. -/
def LevelBlind (f : State → Result) : Prop :=
  ∀ (s : State) (l o : Level) (t : State), f s = .next t →
    ∃ l' o', f (withLevels s l o) = .next (withLevels t l' o')

/-! ### The shared answers -/

theorem levelBlind_refused (why : Refusal) : LevelBlind (fun _ => .refused why) := by
  intro s l o t h
  cases h

/-- A state update through which a change of the levels passes. -/
theorem levelBlind_next {f : State → State}
    (hf : ∀ s l o, f (withLevels s l o) = withLevels (f s) l o) :
    LevelBlind (fun s => .next (f s)) := by
  intro s l o t h
  cases next_inj h
  exact ⟨l, o, congrArg _ (hf s l o)⟩

/-- Trap entry saves the level in the old level and takes the level from the parameters
(60_exceptions.md R150). -/
theorem levelBlind_takeTrap (c : Trap) : LevelBlind (fun s => .next (takeTrap s c)) := by
  intro s l o t h
  cases next_inj h
  exact ⟨s.cfg.trapLevel, l, rfl⟩

theorem levelBlind_reserved (why : Refusal) : LevelBlind (reserved why) := by
  intro s l o
  unfold reserved
  rw [withLevels_cfg]
  cases s.cfg.reservedPolicy with
  | refuse => exact levelBlind_refused why s l o
  | trap => exact levelBlind_takeTrap .unimplementedInstruction s l o

/-- A choice by a condition that does not depend on the levels. -/
theorem levelBlind_ite {c : State → Prop} [∀ s, Decidable (c s)] {f g : State → Result}
    (hc : ∀ s l o, c (withLevels s l o) ↔ c s) (hf : LevelBlind f) (hg : LevelBlind g) :
    LevelBlind (fun s => if c s then f s else g s) := by
  intro s l o
  by_cases h : c s
  · simp only [if_pos h, if_pos ((hc s l o).2 h)]
    exact hf s l o
  · simp only [if_neg h, if_neg (mt (hc s l o).1 h)]
    exact hg s l o

theorem levelBlind_withCoprocessors {f : State → Result} (hf : LevelBlind f) :
    LevelBlind (fun s => withCoprocessors s (f s)) :=
  levelBlind_ite (fun _ _ _ => Iff.rfl) hf (levelBlind_takeTrap .unimplementedInstruction)

theorem levelBlind_cogetAllowed (dst : RegNum) {f : State → Result} (hf : LevelBlind f) :
    LevelBlind (fun s => cogetAllowed s dst (f s)) :=
  levelBlind_ite (fun _ _ _ => Iff.rfl) (levelBlind_refused .cogetDst0) hf

/-! ### The instructions -/

/-- ADJUST, where its adjustment does not depend on the levels. -/
theorem levelBlind_adjust {a : State → Word} (ha : ∀ s l o, a (withLevels s l o) = a s)
    (dst : RegNum) : LevelBlind (fun s => adjust (a s) dst s) := by
  refine levelBlind_ite (fun _ _ _ => Iff.rfl) (levelBlind_reserved .reservedAdjustDst0)
    (levelBlind_next fun s l o => ?_)
  rw [ha]
  rfl

theorem levelBlind_adjustPlus (k : Nat) (dst : RegNum) : LevelBlind (adjust (adjPlus k) dst) :=
  levelBlind_adjust (a := fun _ => adjPlus k) (fun _ _ _ => rfl) dst

theorem levelBlind_execPlus (dst src : RegNum) : LevelBlind (execPlus dst src) :=
  levelBlind_ite (fun _ _ _ => Iff.rfl) (levelBlind_reserved .reservedPlusDst0)
    (levelBlind_next fun _ _ _ => rfl)

theorem levelBlind_cosetRegister (srcx src : RegNum) :
    LevelBlind (fun s => cosetRegister (gprOrZero s srcx) src s) := by
  intro s l o
  simp only [cosetRegister, coOk_withLevels]
  cases coOk s with
  | none => exact levelBlind_takeTrap .coprocessorTrap s l o
  | some k =>
    exact levelBlind_next
      (f := fun s => (s.setCo k (Config.coWrite k s.co[k.val] src (gprOrZero s srcx))).advance)
      (fun _ _ _ => rfl) s l o

theorem levelBlind_execCoset (srcx src : RegNum) : LevelBlind (execCoset srcx src) :=
  levelBlind_withCoprocessors <| levelBlind_ite (fun _ _ _ => Iff.rfl)
    (levelBlind_next fun _ _ _ => rfl) (levelBlind_cosetRegister srcx src)

theorem levelBlind_cogetFromCostat (dst : RegNum) : LevelBlind (cogetFromCostat dst) :=
  levelBlind_withCoprocessors <| levelBlind_cogetAllowed dst <|
    levelBlind_next fun _ _ _ => rfl

theorem levelBlind_cogetSelected (dst src : RegNum) : LevelBlind (cogetSelected dst src) := by
  intro s l o
  simp only [cogetSelected, coOk_withLevels]
  cases coOk s with
  | none => exact levelBlind_takeTrap .coprocessorTrap s l o
  | some k => exact levelBlind_next (f := fun s => cogetState s k dst src) (fun _ _ _ => rfl) s l o

theorem levelBlind_execCoget (dst src : RegNum) : LevelBlind (execCoget dst src) :=
  levelBlind_ite (fun _ _ _ => Iff.rfl) (levelBlind_cogetFromCostat dst) <|
    levelBlind_withCoprocessors <| levelBlind_cogetAllowed dst <|
      levelBlind_cogetSelected dst src

/-- Every instruction without the privilege check of 44_cpu_special.md R125 is level-blind. -/
theorem levelBlind_exec (i : Instr) (hset : ∀ r x, i ≠ .cpuset r x) (hget : ∀ r x, i ≠ .cpuget r x)
    (hpc : ∀ x, i ≠ .cpugetPc x) (hrtt : i ≠ .rtt) (hundef : ∀ a r x, i ≠ .cpuUndefined a r x) :
    LevelBlind (exec i) := by
  cases i with
  | cpuset srcx src => exact absurd rfl (hset srcx src)
  | cpuget dst src => exact absurd rfl (hget dst src)
  | cpugetPc src => exact absurd rfl (hpc src)
  | rtt => exact absurd rfl hrtt
  | cpuUndefined access dst src => exact absurd rfl (hundef access dst src)
  | coset srcx src => exact levelBlind_execCoset srcx src
  | cogetCostat dst => exact levelBlind_cogetFromCostat dst
  | coget dst src => exact levelBlind_execCoget dst src
  | plus dst src => exact levelBlind_execPlus dst src
  | adjustBcd dst => exact levelBlind_adjust (a := fun s => adjBcd s.psw) (fun _ _ _ => rfl) dst
  | adjustEx3 dst => exact levelBlind_adjust (a := fun s => adjEx3 s.psw) (fun _ _ _ => rfl) dst
  | adjustCmsb dst => exact levelBlind_adjust (a := fun s => adjCmsb s.psw) (fun _ _ _ => rfl) dst
  | adjustSsq dst => exact levelBlind_adjust (a := fun s => adjSsq s.psw) (fun _ _ _ => rfl) dst
  | adjustPlus1 dst => exact levelBlind_adjustPlus 0 dst
  | adjustPlus2 dst => exact levelBlind_adjustPlus 1 dst
  | adjustPlus4 dst => exact levelBlind_adjustPlus 2 dst
  | adjustPlus8 dst => exact levelBlind_adjustPlus 3 dst
  | adjustPlus16 dst => exact levelBlind_adjustPlus 4 dst
  | adjustPlus32 dst => exact levelBlind_adjustPlus 5 dst
  | adjustPlus64 dst => exact levelBlind_adjustPlus 6 dst
  | adjustPlus128 dst => exact levelBlind_adjustPlus 7 dst
  | reservedAdjustSel0 _ | reservedAdjustSel1 _ | reservedAdjustSel6 _ | reservedAdjustSel7 _ =>
    exact levelBlind_reserved .reservedAdjustSelector
  | reservedAdjustDst0 _ => exact levelBlind_reserved .reservedAdjustDst0
  | reservedPlusDst0 _ => exact levelBlind_reserved .reservedPlusDst0
  | undefinedFn6 _ _ | undefinedFn7 _ _ => exact levelBlind_refused .undefinedFunctionCode

/-! ### COSET and COGET complete -/

theorem execCoset_completes (srcx src : RegNum) (s : State) :
    ∃ t, execCoset srcx src s = .next t := by
  rcases execCoset_cases srcx src s with ⟨_, e⟩ | ⟨_, _, e⟩ | ⟨_, _, _, e⟩ | ⟨_, _, _, _, e⟩ <;>
    exact ⟨_, e⟩

/-- A COGET is not refused where its dst is not 0 or `COGET_DST0` discards the value. -/
theorem not_refused_of_dst {dst : RegNum} {s : State}
    (h : dst ≠ 0#4 ∨ s.cfg.cogetDst0 = .discard) (hd : dst = 0#4)
    (hr : s.cfg.cogetDst0 = .refuse) : False := by
  simp [hd, hr] at h

theorem cogetFromCostat_completes (dst : RegNum) (s : State)
    (h : dst ≠ 0#4 ∨ s.cfg.cogetDst0 = .discard) : ∃ t, cogetFromCostat dst s = .next t := by
  rcases cogetFromCostat_cases dst s with ⟨_, e⟩ | ⟨_, hd, hr, _⟩ | ⟨_, _, e⟩
  · exact ⟨_, e⟩
  · exact (not_refused_of_dst h hd hr).elim
  · exact ⟨_, e⟩

theorem cogetFromRegister_completes (dst src : RegNum) (s : State)
    (h : dst ≠ 0#4 ∨ s.cfg.cogetDst0 = .discard) :
    ∃ t, cogetFromRegister dst src s = .next t := by
  rcases cogetFromRegister_cases dst src s with
    ⟨_, e⟩ | ⟨_, hd, hr, _⟩ | ⟨_, _, _, e⟩ | ⟨_, _, _, _, e⟩
  · exact ⟨_, e⟩
  · exact (not_refused_of_dst h hd hr).elim
  · exact ⟨_, e⟩
  · exact ⟨_, e⟩

theorem execCoget_completes (dst src : RegNum) (s : State)
    (h : dst ≠ 0#4 ∨ s.cfg.cogetDst0 = .discard) : ∃ t, execCoget dst src s = .next t := by
  unfold execCoget
  split
  · exact cogetFromCostat_completes dst s h
  · exact cogetFromRegister_completes dst src s h

/-- Settles O59: COSET and COGET complete, and no unprivileged instruction looks at the levels. -/
theorem otherInstructionsAreLevelBlind : Obligations.OtherInstructionsAreLevelBlind := by
  refine ⟨fun f src s => ⟨execCoset_completes f src s, fun h =>
    ⟨cogetFromCostat_completes f s h, execCoget_completes f src s h⟩⟩, ?_⟩
  intro i s t l o he hset hget hpc hrtt hundef
  obtain ⟨l', o', he'⟩ := levelBlind_exec i hset hget hpc hrtt hundef s l o t he
  exact ⟨withLevels t l' o', he', by simp [withLevels]⟩

end Sys2Proof.Proofs.Levels
end

section
/-! PROOFS. CPUGET to a general register and RTT (44_cpu_special.md R126, R128): each is the
privilege check before one transfer, so a statement is the two sides of the check and the frame of
the transfer. -/

namespace Sys2Proof.Proofs.CpuSpecial

open Sys2Proof.Machine Sys2Proof.Safety

/-! ### The word of CPUGET -/

/-- Function code 1 and the I[7:4] of every special instruction make the constant part of the word
of CPUGET (30_encoding.md R58). -/
theorem assemble_one (dst src : RegNum) :
    assemble 1 dst src = 0x1010#16 ||| (src.setWidth 16 <<< 8) ||| dst.setWidth 16 := by
  rw [assemble, BitVec.or_assoc _ _ 0x0010#16, BitVec.or_comm _ 0x0010#16,
    ← BitVec.or_assoc _ 0x0010#16]
  rfl

/-! ### The transfer of CPUGET to a general register -/

theorem deliverCpuValue_reg_same (s : State) (dst : RegNum) (v : Word) (n : Nat)
    (hd : dst ≠ 0#4) : (deliverCpuValue s dst v n).reg dst = v := by
  rw [deliverCpuValue_reg s dst v n hd]
  exact reg_setReg_same s dst v hd

theorem sameRegsExcept_deliverCpuValue (s : State) (dst : RegNum) (v : Word) (n : Nat)
    (hd : dst ≠ 0#4) : SameRegsExcept s (deliverCpuValue s dst v n) dst := by
  rw [deliverCpuValue_reg s dst v n hd]
  exact Adjust.sameRegsExcept_setReg_advance s dst v

theorem deliverCpuValue_pc (s : State) (dst : RegNum) (v : Word) (n : Nat) (hd : dst ≠ 0#4) :
    (deliverCpuValue s dst v n).pc = s.pc + 2#32 := by
  simp [deliverCpuValue_reg s dst v n hd]

theorem deliverCpuValue_psw (s : State) (dst : RegNum) (v : Word) (n : Nat) (hd : dst ≠ 0#4) :
    (deliverCpuValue s dst v n).psw = s.psw := by
  simp [deliverCpuValue_reg s dst v n hd]

/-- The transfer of CPUGET, to the pc or to a register, leaves all else than registers, PSW and pc
as it was. -/
theorem sameBeyondRegsAndPsw_deliverCpuValue (s : State) (dst : RegNum) (v : Word) (n : Nat) :
    SameBeyondRegsAndPsw s (deliverCpuValue s dst v n) := by
  simp [SameBeyondRegsAndPsw, SameSpecial, SameCoprocessors, SameMemory]

/-! ### The return from a trap -/

/-- The return writes the pc and the level alone (44_cpu_special.md R128). -/
theorem sameBeyondRegsAndPsw_returnTo (s : State) (target : Word) :
    SameBeyondRegsAndPsw s (returnTo s target) := by
  simp [SameBeyondRegsAndPsw, SameSpecial, SameCoprocessors, SameMemory]

/-! ### The statements -/

/-- Settles O14: past the privilege check CPUGET transfers `cpuRead s src`, which is the named
field of the state for each register but CYC. -/
theorem cpugetCopiesSpecialRegister : Obligations.CpugetCopiesSpecialRegister := by
  intro dst src s hd
  refine ⟨assemble_one dst src.number, privileged_trap s _, fun hlevel => ?_⟩
  have hreg := deliverCpuValue_reg_same s dst (cpuRead s src) (drawsAfterRead s src) hd
  refine ⟨_, privileged_body s _ hlevel, ?psw, ?tpc, ?tma, ?tsv,
    deliverCpuValue_pc s dst _ _ hd, sameRegsExcept_deliverCpuValue s dst _ _ hd,
    deliverCpuValue_psw s dst _ _ hd, sameBeyondRegsAndPsw_deliverCpuValue s dst _ _⟩
  all_goals
    rintro rfl
    exact hreg

/-- Settles O18: past the privilege check RTT is the return to TPC. -/
theorem rttReturnsFromTrap : Obligations.RttReturnsFromTrap := by
  refine ⟨rfl, by decide, fun s => ⟨privileged_trap s _, fun hlevel => ?_⟩⟩
  exact ⟨returnTo s s.tpc, privileged_body s _ hlevel, returnTo_pc s s.tpc, returnTo_psw s s.tpc,
    returnTo_reg s s.tpc, sameBeyondRegsAndPsw_returnTo s s.tpc⟩

end Sys2Proof.Proofs.CpuSpecial
end

section
/-! PROOFS. The decoder read as one table of function codes (30_encoding.md R58), and its agreement
with the encoder in both directions. -/

namespace Sys2Proof.Proofs.Encoding

open Sys2Proof.Config

/-! ### The opcode map -/

/-- The instruction that the fields of a special word name, by its function code (R58). -/
def instrOfFields (fn : Nat) (src dst : RegNum) : Instr :=
  match fn with
  | 0 => decodeCpuset src dst
  | 1 => decodeCpuget src dst
  | 2 => .coset dst src
  | 3 => decodeCoget src dst
  | 4 => decodePlus src dst
  | 5 => decodeAdjust src dst
  | 6 => .undefinedFn6 dst src
  | _ => .undefinedFn7 dst src

/-- A word decodes exactly when it is special, and then by its function code. -/
theorem decode_eq_ok_iff (w : Half) (i : Instr) :
    decode w = .ok i ↔ opField w = 1#4 ∧ (fnField w).toNat < 8
      ∧ i = instrOfFields (fnField w).toNat (srcField w) (dstField w) := by
  unfold decode
  by_cases hop : opField w = 1#4
  · have hlt := (fnField w).isLt
    generalize (fnField w).toNat = fn at hlt
    interval_cases fn <;> simp [hop, instrOfFields, eq_comm]
  · simp [hop]

theorem decode_assemble (fn : BitVec 4) (dst src : RegNum) (h : fn.toNat < 8) :
    decode (assemble fn dst src) = .ok (instrOfFields fn.toNat src dst) := by
  rw [decode_eq_ok_iff]
  simpa using h

/-- I[15] is the top bit of the function code. -/
theorem fnField_lt_eight_iff (w : Half) : (fnField w).toNat < 8 ↔ w[15] = false := by
  have hmsb : (fnField w).msb = w[15] := by simp [fnField, BitVec.msb_eq_getLsbD_last]
  rw [← hmsb, BitVec.msb_eq_false_iff_two_mul_lt]
  omega

/-! ### The numbers of the special registers -/

/-- Every register number is that of a defined or of an undefined special register (10_state.md
R21, R26, R27). -/
theorem number_surjective (n : RegNum) :
    (∃ r : CpuReg, r.number = n) ∨ ∃ x : ExtraReg, x.number = n := by
  have hlt := n.isLt
  by_cases hmmu : 4 ≤ n.toNat ∧ n.toNat < 8
  · refine .inr ⟨.mmu ⟨n.toNat - 4, by omega⟩, BitVec.eq_of_toNat_eq ?_⟩
    simp only [ExtraReg.number, BitVec.toNat_ofNat]
    omega
  by_cases hother : 9 ≤ n.toNat
  · refine .inr ⟨.other ⟨n.toNat - 9, by omega⟩, BitVec.eq_of_toNat_eq ?_⟩
    simp only [ExtraReg.number, BitVec.toNat_ofNat]
    omega
  have hdefined : n = 0#4 ∨ n = 1#4 ∨ n = 2#4 ∨ n = 3#4 ∨ n = 8#4 := by bv_omega
  rcases hdefined with rfl | rfl | rfl | rfl | rfl
  · exact .inl ⟨.psw, rfl⟩
  · exact .inl ⟨.tpc, rfl⟩
  · exact .inl ⟨.tma, rfl⟩
  · exact .inl ⟨.tsv, rfl⟩
  · exact .inl ⟨.cyc, rfl⟩

theorem number_eq_one_iff (r : CpuReg) : r.number = 1#4 ↔ r = .tpc := by
  cases r <;> decide

theorem decodeCpuset_number (r : CpuReg) (srcx : RegNum) :
    decodeCpuset r.number srcx = .cpuset srcx r := by
  cases r <;> rfl

theorem decodeCpuget_number (r : CpuReg) (dst : RegNum) :
    decodeCpuget r.number dst = decodeCpugetDefined r dst := by
  cases r <;> rfl

theorem decodeCpuset_extraNumber (x : ExtraReg) (srcx : RegNum) :
    decodeCpuset x.number srcx = .cpuUndefined .set srcx x := by
  cases x with
  | mmu i => fin_cases i <;> rfl
  | other i => fin_cases i <;> rfl

theorem decodeCpuget_extraNumber (x : ExtraReg) (dst : RegNum) :
    decodeCpuget x.number dst = .cpuUndefined .get dst x := by
  cases x with
  | mmu i => fin_cases i <;> rfl
  | other i => fin_cases i <;> rfl

/-- CPUSET keeps the register number, defined or not (R60, R62). -/
theorem decodeCpuset_cases (src srcx : RegNum) :
    (∃ r : CpuReg, r.number = src ∧ decodeCpuset src srcx = .cpuset srcx r)
      ∨ ∃ x : ExtraReg, x.number = src ∧ decodeCpuset src srcx = .cpuUndefined .set srcx x := by
  rcases number_surjective src with ⟨r, rfl⟩ | ⟨x, rfl⟩
  · exact .inl ⟨r, rfl, decodeCpuset_number r srcx⟩
  · exact .inr ⟨x, rfl, decodeCpuset_extraNumber x srcx⟩

/-- CPUGET of a defined register has a program-counter form for dst = 0, RTT the one of TPC
(R58, R61). -/
theorem decodeCpugetDefined_cases (r : CpuReg) (dst : RegNum) :
    (dst ≠ 0#4 ∧ decodeCpugetDefined r dst = .cpuget dst r)
      ∨ (dst = 0#4 ∧ r ≠ .tpc ∧ decodeCpugetDefined r dst = .cpugetPc r)
      ∨ (dst = 0#4 ∧ r = .tpc ∧ decodeCpugetDefined r dst = .rtt) := by
  unfold decodeCpugetDefined
  by_cases hd : dst = 0#4
  · cases r <;> simp [hd]
  · simp [hd]

/-- CPUGET keeps the register number in each of its forms. -/
theorem decodeCpuget_cases (src dst : RegNum) :
    (dst ≠ 0#4 ∧ ∃ r : CpuReg, r.number = src ∧ decodeCpuget src dst = .cpuget dst r)
      ∨ (dst = 0#4 ∧ src ≠ 1#4 ∧ ∃ r : CpuReg, r.number = src ∧ decodeCpuget src dst = .cpugetPc r)
      ∨ (dst = 0#4 ∧ src = 1#4 ∧ decodeCpuget src dst = .rtt)
      ∨ ∃ x : ExtraReg, x.number = src ∧ decodeCpuget src dst = .cpuUndefined .get dst x := by
  rcases number_surjective src with ⟨r, rfl⟩ | ⟨x, rfl⟩
  · rw [decodeCpuget_number]
    rcases decodeCpugetDefined_cases r dst with ⟨hd, e⟩ | ⟨hd, hr, e⟩ | ⟨hd, hr, e⟩
    · exact .inl ⟨hd, r, rfl, e⟩
    · exact .inr (.inl ⟨hd, mt (number_eq_one_iff r).1 hr, r, rfl, e⟩)
    · exact .inr (.inr (.inl ⟨hd, (number_eq_one_iff r).2 hr, e⟩))
  · exact .inr (.inr (.inr ⟨x, rfl, decodeCpuget_extraNumber x dst⟩))

/-! ### The selectors of ADJUST -/

/-- The rows of ADJUST by selector, for dst = 1..15 (R59, R62). -/
def adjustRows (dst : RegNum) : List Instr :=
  [.reservedAdjustSel0 dst, .reservedAdjustSel1 dst, .adjustBcd dst, .adjustEx3 dst,
    .adjustCmsb dst, .adjustSsq dst, .reservedAdjustSel6 dst, .reservedAdjustSel7 dst,
    .adjustPlus1 dst, .adjustPlus2 dst, .adjustPlus4 dst, .adjustPlus8 dst, .adjustPlus16 dst,
    .adjustPlus32 dst, .adjustPlus64 dst, .adjustPlus128 dst]

theorem decodeAdjust_zero (src : RegNum) : decodeAdjust src 0#4 = .reservedAdjustDst0 src := rfl

theorem decodeAdjust_eq_row (src dst : RegNum) (hd : dst ≠ 0#4) :
    some (decodeAdjust src dst) = (adjustRows dst)[src.toNat]? := by
  unfold decodeAdjust
  rw [if_neg hd]
  have hlt := src.isLt
  generalize src.toNat = n at hlt
  interval_cases n <;> rfl

/-- Row `n` of ADJUST is assembled with selector `n`, and is well formed. -/
theorem encode_adjustRow {dst : RegNum} {n : Nat} {i : Instr} (hd : dst ≠ 0#4)
    (hi : (adjustRows dst)[n]? = some i) :
    encode i = assemble 5 dst (BitVec.ofNat 4 n) ∧ i.wellFormed = true := by
  have hwf : (dst != 0#4) = true := bne_iff_ne.2 hd
  obtain ⟨hn, rfl⟩ := List.getElem?_eq_some_iff.1 hi
  have hlt : n < 16 := hn
  interval_cases n <;> exact ⟨rfl, hwf⟩

/-! ### Encoding what was decoded -/

theorem encode_decodeCpuset (src srcx : RegNum) :
    encode (decodeCpuset src srcx) = assemble 0 srcx src
      ∧ (decodeCpuset src srcx).wellFormed = true := by
  rcases decodeCpuset_cases src srcx with ⟨r, rfl, e⟩ | ⟨x, rfl, e⟩ <;> rw [e] <;>
    exact ⟨rfl, rfl⟩

theorem encode_decodeCpuget (src dst : RegNum) :
    encode (decodeCpuget src dst) = assemble 1 dst src
      ∧ (decodeCpuget src dst).wellFormed = true := by
  rcases decodeCpuget_cases src dst with
    ⟨hd, r, rfl, e⟩ | ⟨rfl, hs, r, rfl, e⟩ | ⟨rfl, rfl, e⟩ | ⟨x, rfl, e⟩ <;> rw [e]
  · exact ⟨rfl, bne_iff_ne.2 hd⟩
  · exact ⟨rfl, bne_iff_ne.2 (mt (number_eq_one_iff r).2 hs)⟩
  · exact ⟨rfl, rfl⟩
  · exact ⟨rfl, rfl⟩

theorem encode_decodeCoget (src dst : RegNum) :
    encode (decodeCoget src dst) = assemble 3 dst src
      ∧ (decodeCoget src dst).wellFormed = true := by
  unfold decodeCoget
  by_cases hs : src = 0#4
  · simp [hs, encode, Instr.wellFormed]
  · simp [hs, encode, Instr.wellFormed]

theorem encode_decodePlus (src dst : RegNum) :
    encode (decodePlus src dst) = assemble 4 dst src
      ∧ (decodePlus src dst).wellFormed = true := by
  unfold decodePlus
  by_cases hd : dst = 0#4
  · simp [hd, encode, Instr.wellFormed]
  · simp [hd, encode, Instr.wellFormed]

theorem encode_decodeAdjust (src dst : RegNum) :
    encode (decodeAdjust src dst) = assemble 5 dst src
      ∧ (decodeAdjust src dst).wellFormed = true := by
  by_cases hd : dst = 0#4
  · rw [hd, decodeAdjust_zero]
    exact ⟨rfl, rfl⟩
  · simpa using encode_adjustRow hd (decodeAdjust_eq_row src dst hd).symm

/-- The instruction of three fields is well formed, and its word is assembled from them. -/
theorem encode_instrOfFields (fn : BitVec 4) (src dst : RegNum) (h : fn.toNat < 8) :
    encode (instrOfFields fn.toNat src dst) = assemble fn dst src
      ∧ (instrOfFields fn.toNat src dst).wellFormed = true := by
  obtain ⟨n, rfl⟩ : ∃ n : Fin 8, fn = BitVec.ofNat 4 n :=
    ⟨⟨fn.toNat, h⟩, by simp⟩
  fin_cases n
  · exact encode_decodeCpuset src dst
  · exact encode_decodeCpuget src dst
  · exact ⟨rfl, rfl⟩
  · exact encode_decodeCoget src dst
  · exact encode_decodePlus src dst
  · exact encode_decodeAdjust src dst
  · exact ⟨rfl, rfl⟩
  · exact ⟨rfl, rfl⟩

/-! ### Decoding what was encoded -/

/-- A row of ADJUST is decoded from the word with its selector. -/
theorem decode_adjustRow {dst : RegNum} {n : Nat} {i : Instr} (hd : dst ≠ 0#4)
    (hi : (adjustRows dst)[n]? = some i) : decode (encode i) = .ok i := by
  rw [(encode_adjustRow hd hi).1, decode_assemble _ _ _ (by decide)]
  have hrow := decodeAdjust_eq_row (BitVec.ofNat 4 n) dst hd
  obtain ⟨hn, rfl⟩ := List.getElem?_eq_some_iff.1 hi
  have hlt : n < 16 := hn
  rw [BitVec.toNat_ofNat, Nat.mod_eq_of_lt hlt, hi] at hrow
  exact congrArg _ (Option.some.inj hrow)

/-- Every well-formed instruction is decoded from its word: by the register number for CPUSET and
CPUGET, by the row of the selector for ADJUST, and by dst and src for the rest. -/
theorem decode_encode (i : Instr) (hwf : i.wellFormed = true) : decode (encode i) = .ok i := by
  cases i with
  | cpuset srcx r =>
    exact (decode_assemble 0 srcx r.number (by decide)).trans
      (congrArg _ (decodeCpuset_number r srcx))
  | cpuget dst r =>
    have hd : dst ≠ 0#4 := bne_iff_ne.1 hwf
    refine (decode_assemble 1 dst r.number (by decide)).trans (congrArg _ ?_)
    exact (decodeCpuget_number r dst).trans (if_neg hd)
  | cpugetPc r =>
    refine (decode_assemble 1 0 r.number (by decide)).trans (congrArg _ ?_)
    refine (decodeCpuget_number r 0#4).trans ?_
    cases r with
    | tpc => cases hwf
    | psw | tma | tsv | cyc => rfl
  | rtt => rfl
  | coset srcx src => exact decode_assemble 2 srcx src (by decide)
  | cogetCostat dst => exact decode_assemble 3 dst 0 (by decide)
  | coget dst src =>
    exact (decode_assemble 3 dst src (by decide)).trans (congrArg _ (if_neg (bne_iff_ne.1 hwf)))
  | plus dst src =>
    exact (decode_assemble 4 dst src (by decide)).trans (congrArg _ (if_neg (bne_iff_ne.1 hwf)))
  | reservedAdjustSel0 dst => exact decode_adjustRow (n := 0) (bne_iff_ne.1 hwf) rfl
  | reservedAdjustSel1 dst => exact decode_adjustRow (n := 1) (bne_iff_ne.1 hwf) rfl
  | adjustBcd dst => exact decode_adjustRow (n := 2) (bne_iff_ne.1 hwf) rfl
  | adjustEx3 dst => exact decode_adjustRow (n := 3) (bne_iff_ne.1 hwf) rfl
  | adjustCmsb dst => exact decode_adjustRow (n := 4) (bne_iff_ne.1 hwf) rfl
  | adjustSsq dst => exact decode_adjustRow (n := 5) (bne_iff_ne.1 hwf) rfl
  | reservedAdjustSel6 dst => exact decode_adjustRow (n := 6) (bne_iff_ne.1 hwf) rfl
  | reservedAdjustSel7 dst => exact decode_adjustRow (n := 7) (bne_iff_ne.1 hwf) rfl
  | adjustPlus1 dst => exact decode_adjustRow (n := 8) (bne_iff_ne.1 hwf) rfl
  | adjustPlus2 dst => exact decode_adjustRow (n := 9) (bne_iff_ne.1 hwf) rfl
  | adjustPlus4 dst => exact decode_adjustRow (n := 10) (bne_iff_ne.1 hwf) rfl
  | adjustPlus8 dst => exact decode_adjustRow (n := 11) (bne_iff_ne.1 hwf) rfl
  | adjustPlus16 dst => exact decode_adjustRow (n := 12) (bne_iff_ne.1 hwf) rfl
  | adjustPlus32 dst => exact decode_adjustRow (n := 13) (bne_iff_ne.1 hwf) rfl
  | adjustPlus64 dst => exact decode_adjustRow (n := 14) (bne_iff_ne.1 hwf) rfl
  | adjustPlus128 dst => exact decode_adjustRow (n := 15) (bne_iff_ne.1 hwf) rfl
  | reservedAdjustDst0 src => exact decode_assemble 5 0 src (by decide)
  | reservedPlusDst0 src => exact decode_assemble 4 0 src (by decide)
  | cpuUndefined access dst x =>
    cases access with
    | set =>
      exact (decode_assemble 0 dst x.number (by decide)).trans
        (congrArg _ (decodeCpuset_extraNumber x dst))
    | get =>
      exact (decode_assemble 1 dst x.number (by decide)).trans
        (congrArg _ (decodeCpuget_extraNumber x dst))
  | undefinedFn6 dst src => exact decode_assemble 6 dst src (by decide)
  | undefinedFn7 dst src => exact decode_assemble 7 dst src (by decide)

/-! ### A word under the mask of its op and fn fields -/

theorem fnField_and_mask (w : Half) : fnField (w &&& 0xF0F0#16) = fnField w := by
  rw [fnField, BitVec.extractLsb'_and]
  exact BitVec.and_allOnes

/-- A decoded word whose masked bits are `m` is decoded by the function code of `m`. -/
theorem eq_instrOfFields_of_mask {w m : Half} {i : Instr} (hdec : decode w = .ok i)
    (hm : w &&& 0xF0F0#16 = m) :
    i = instrOfFields (fnField m).toNat (srcField w) (dstField w) := by
  rw [← hm, fnField_and_mask]
  exact ((decode_eq_ok_iff w i).1 hdec).2.2

/-! ### The statements -/

/-- Settles O46: each row is decoded from the word assembled for it. -/
theorem decodeEncodeRoundTrip : Obligations.DecodeEncodeRoundTrip := decode_encode

/-- Settles O47: a word that decodes is assembled from its fields, and so is the word of the
instruction those fields name. -/
theorem encodeOfDecodedWord : Obligations.EncodeOfDecodedWord := by
  intro w i hdec
  obtain ⟨hop, hfn, rfl⟩ := (decode_eq_ok_iff w i).1 hdec
  obtain ⟨henc, hwf⟩ := encode_instrOfFields (fnField w) (srcField w) (dstField w) hfn
  exact ⟨henc.trans (assemble_fields w hop), hwf⟩

/-- Settles O48: a word decodes exactly when it is special, and the mask of a clause fixes the
function code by which it does. -/
theorem decodeFollowsOpcodeMap : Obligations.DecodeFollowsOpcodeMap := by
  intro w
  constructor
  · rw [← fnField_lt_eight_iff]
    constructor
    · rintro ⟨i, hdec⟩
      obtain ⟨hop, hfn, -⟩ := (decode_eq_ok_iff w i).1 hdec
      exact ⟨hop, hfn⟩
    · rintro ⟨hop, hfn⟩
      exact ⟨_, (decode_eq_ok_iff w _).2 ⟨hop, hfn, rfl⟩⟩
  · rintro i dst src hdec rfl rfl
    refine ⟨fun hm => ?_, fun hm => ?_, eq_instrOfFields_of_mask hdec,
      eq_instrOfFields_of_mask hdec, eq_instrOfFields_of_mask hdec,
      fun hm => ⟨fun hd => ?_, fun hd => ?_⟩, eq_instrOfFields_of_mask hdec,
      eq_instrOfFields_of_mask hdec⟩
    all_goals rw [eq_instrOfFields_of_mask hdec hm]
    · exact decodeCpuset_cases (srcField w) (dstField w)
    · exact decodeCpuget_cases (srcField w) (dstField w)
    · exact if_pos hd
    · exact decodeAdjust_eq_row (srcField w) (dstField w) hd

/-- Settles O49: the decoder run on the bytes of each word. -/
theorem sampleWordsDecode : Obligations.SampleWordsDecode := by
  exact ⟨rfl, rfl, rfl, rfl, rfl, rfl, rfl, rfl, rfl⟩

end Sys2Proof.Proofs.Encoding
end

section
/-! PROOFS. The rules of the whole machine: for each field of the state which kinds of effect in
`ExecNext` can change it, and from there what a step can change. -/

namespace Sys2Proof.Proofs.Rules

open Sys2Proof.Machine Sys2Proof.Config Sys2Proof.Safety

/-! ### What the next state of an instruction keeps -/

section Keeps

variable {i : Instr} {s t : State}

/-- No special instruction writes memory (20_memory.md section 3). -/
theorem execNext_mem (h : ExecNext i s t) : t.mem = s.mem := by
  cases h <;> simp

/-- No instruction changes a parameter (10_state.md R31). -/
theorem execNext_cfg (h : ExecNext i s t) : t.cfg = s.cfg := by
  cases h <;> simp

/-- COSTAT changes by COSET with src = 0 alone, which stores implemented bits (10_state.md R28,
43_coprocessor.md R113). -/
theorem execNext_costat (h : ExecNext i s t) :
    t.costat = s.costat
      ∨ ∃ srcx, i = .coset srcx 0#4 ∧ t.costat = s.reg srcx &&& s.cfg.costatLayout.implMask := by
  cases h with
  | cosetCostat srcx hi => exact .inr ⟨srcx, hi, rfl⟩
  | trap | add | cpuset | cpuget | rtt | extraSet | coset | cogetCostat | coget => simp

/-- TSV changes by CPUSET with src = 3 alone, at a privileged level (10_state.md R24). -/
theorem execNext_tsv (h : ExecNext i s t) :
    t.tsv = s.tsv
      ∨ ∃ srcx, i = .cpuset srcx .tsv ∧ s.psw.level ≠ unprivilegedLevel
          ∧ t.tsv = s.reg srcx := by
  cases h with
  | cpuset srcx r hi hl =>
    cases r with
    | tsv => exact .inr ⟨srcx, hi, hl, rfl⟩
    | psw | tpc | tma | cyc => exact .inl rfl
  | trap | add | cpuget | rtt | extraSet | cosetCostat | coset | cogetCostat | coget => simp

/-- CPUGET writes no condition code and no BCD carry, in whatever form. -/
theorem deliverCpuValue_flags (s : State) (dst : RegNum) (v : Word) (n : Nat) :
    (deliverCpuValue s dst v n).psw.n = s.psw.n ∧ (deliverCpuValue s dst v n).psw.z = s.psw.z
      ∧ (deliverCpuValue s dst v n).psw.v = s.psw.v ∧ (deliverCpuValue s dst v n).psw.c = s.psw.c
      ∧ (deliverCpuValue s dst v n).psw.bcdc = s.psw.bcdc := by
  by_cases hd : dst = 0#4
  · subst hd
    simp [deliverCpuValue_zero]
  · simp [CpuSpecial.deliverCpuValue_psw s dst v n hd]

/-- The four condition codes of the PSW are those before (10_state.md R16). -/
def SameNzvc (s t : State) : Prop :=
  t.psw.n = s.psw.n ∧ t.psw.z = s.psw.z ∧ t.psw.v = s.psw.v ∧ t.psw.c = s.psw.c

/-- The instructions that write the condition codes: COGET in both forms and CPUSET of the PSW. -/
def WritesNzvc (i : Instr) : Prop :=
  (∃ dst, i = .cogetCostat dst) ∨ (∃ dst src, i = .coget dst src) ∨ ∃ srcx, i = .cpuset srcx .psw

/-- N, Z, V and C change by COGET and by CPUSET of the PSW alone (10_state.md R16). -/
theorem execNext_nzvc (h : ExecNext i s t) : SameNzvc s t ∨ WritesNzvc i := by
  cases h with
  | cpuset srcx r hi =>
    cases r with
    | psw => exact .inr (.inr (.inr ⟨srcx, hi⟩))
    | tpc | tma | tsv | cyc => exact .inl ⟨rfl, rfl, rfl, rfl⟩
  | cpuget dst v n =>
    obtain ⟨hn, hz, hv, hc, -⟩ := deliverCpuValue_flags s dst v n
    exact .inl ⟨hn, hz, hv, hc⟩
  | cogetCostat dst hi =>
    rcases hi with hi | hi
    · exact .inr (.inl ⟨dst, hi⟩)
    · exact .inr (.inr (.inl ⟨dst, 0#4, hi⟩))
  | coget dst src k hi => exact .inr (.inr (.inl ⟨dst, src, hi⟩))
  | trap | add | rtt | extraSet | cosetCostat | coset => exact .inl ⟨rfl, rfl, rfl, rfl⟩

/-- The BCD carries change by CPUSET of the PSW alone (10_state.md R17). -/
theorem execNext_bcdc (h : ExecNext i s t) :
    t.psw.bcdc = s.psw.bcdc ∨ ∃ srcx, i = .cpuset srcx .psw := by
  cases h with
  | cpuset srcx r hi =>
    cases r with
    | psw => exact .inr ⟨srcx, hi⟩
    | tpc | tma | tsv | cyc => exact .inl rfl
  | cpuget dst v n =>
    obtain ⟨-, -, -, -, hb⟩ := deliverCpuValue_flags s dst v n
    exact .inl hb
  | trap | add | rtt | extraSet | cosetCostat | coset | cogetCostat | coget => exact .inl rfl

/-- The level and every privileged register but CYC are those before. -/
def StaysUnprivileged (s t : State) : Prop :=
  t.psw.level = s.psw.level ∧ t.psw.oldLevel = s.psw.oldLevel ∧ t.tpc = s.tpc ∧ t.tma = s.tma
    ∧ t.tsv = s.tsv ∧ t.mmu = s.mmu ∧ t.extra = s.extra

/-- At level 1111 an instruction keeps the level and every privileged register, or traps
(60_exceptions.md R160). -/
theorem execNext_unprivileged (h : ExecNext i s t) (hl : s.psw.level = unprivilegedLevel) :
    StaysUnprivileged s t ∨ ∃ c, t = takeTrap s c := by
  cases h with
  | trap c => exact .inr ⟨c, rfl⟩
  | cpuset _ _ _ hp | cpuget _ _ _ hp | rtt _ hp | extraSet _ _ _ hp => exact absurd hl hp
  | add | cosetCostat | coset | cogetCostat | coget => simp [StaysUnprivileged]

/-- A step is the memory-addressing trap, or does what its decoded instruction does, at the state
after the coprocessors' progress and the count of the fetch. -/
theorem step_execNext (h : step s = .next t) :
    (∃ va, t = takeTrap (beforeExec s) (.memoryAddressing va))
      ∨ ∃ w i, fetch s = .word w ∧ decode w = .ok i ∧ ExecNext i (beforeExec s) t := by
  rcases step_next s t h with ⟨va, _, rfl⟩ | ⟨w, i, hf, hd, _, hn⟩
  · exact .inl ⟨va, rfl⟩
  · exact .inr ⟨w, i, hf, hd, hn⟩

theorem step_mem (h : step s = .next t) : t.mem = s.mem := by
  rcases step_execNext h with ⟨_, rfl⟩ | ⟨_, _, _, _, hn⟩
  · rfl
  · exact (execNext_mem hn).trans (beforeExec_mem s)

theorem step_cfg (h : step s = .next t) : t.cfg = s.cfg := by
  rcases step_execNext h with ⟨_, rfl⟩ | ⟨_, _, _, _, hn⟩
  · rfl
  · exact (execNext_cfg hn).trans (beforeExec_cfg s)

theorem step_costat (h : step s = .next t) :
    t.costat = s.costat
      ∨ ∃ w srcx, fetch s = .word w ∧ decode w = .ok (.coset srcx 0#4)
          ∧ t.costat = s.reg srcx &&& s.cfg.costatLayout.implMask := by
  rcases step_execNext h with ⟨_, rfl⟩ | ⟨w, i, hf, hd, hn⟩
  · exact .inl rfl
  · rcases execNext_costat hn with e | ⟨srcx, rfl, e⟩
    · exact .inl e
    · exact .inr ⟨w, srcx, hf, hd, e⟩

/-- No step sets an unimplemented bit of COSTAT (10_state.md R28). -/
theorem step_costat_implemented (h : step s = .next t)
    (hs : s.costat &&& ~~~s.cfg.costatLayout.implMask = 0#32) :
    t.costat &&& ~~~s.cfg.costatLayout.implMask = 0#32 := by
  rcases step_costat h with e | ⟨_, srcx, _, _, e⟩ <;> rw [e]
  · exact hs
  · rw [BitVec.and_assoc, BitVec.and_not_self]
    exact BitVec.and_zero

end Keeps

/-! ### The layout of COSTAT at reset -/

/-- What a value selects depends on its implemented bits alone, where no test of the layout looks at
another bit. -/
theorem coSelected_and_implMask (l : CostatLayout) (v : Word)
    (h : ∀ row ∈ l.select, l.implMask &&& row.1.mask = row.1.mask) :
    coSelected l (v &&& l.implMask) = coSelected l v :=
  congrArg (Option.map Prod.snd)
    (List.find?_congr fun row hrow => meetsTest_and v l.implMask row.1 (h row hrow))

/-- A coprocessor is enabled by no implemented bits, where each of its tests asks for a 1 in an
unimplemented bit. -/
theorem coEnabled_and_implMask (l : CostatLayout) (k : CoId) (v : Word)
    (h : ∀ test ∈ l.enable[k.val], test.value &&& l.implMask ≠ test.value) :
    coEnabled l (v &&& l.implMask) k = false :=
  List.any_eq_false.2 fun test htest =>
    Bool.eq_false_iff.1 (meetsTest_and_false v l.implMask test (h test htest))

/-- The layout at reset meets the constraints of 43_coprocessor.md R106. -/
theorem defaultCostatLayout_valid : CostatLayoutValid defaultCostatLayout defaultPresent := by
  refine ⟨fun k _ v => coEnabled_and_implMask defaultCostatLayout k v ?_,
    fun v => coSelected_and_implMask defaultCostatLayout v (by decide), by decide, by decide⟩
  revert k
  decide

/-! ### The statements -/

/-- Settles O50: memory and the parameters are kept, and COSTAT is kept or takes implemented
bits. -/
theorem everyStepKeepsInvariant : Obligations.EveryStepKeepsInvariant := by
  rintro s t ⟨hmem, hcfg, hcostat⟩ h
  unfold Safety.Inv
  rw [step_mem h, step_cfg h]
  exact ⟨hmem, hcfg, step_costat_implemented h hcostat⟩

/-- Settles O51: the layouts at reset are checked by their bits, and COSTAT is 0. -/
theorem resetMeetsInvariant : Obligations.ResetMeetsInvariant :=
  ⟨reset_mem_wf, ⟨by decide, by decide, defaultCostatLayout_valid⟩, by decide⟩

/-- Settles O52: the two fields of the state after reset, and their defaults. -/
theorem resetLoadsPcAndLevel : Obligations.ResetLoadsPcAndLevel :=
  ⟨fun _ => ⟨rfl, rfl, rfl⟩, rfl, rfl⟩

/-- Settles O53: of the kinds of effect only CPUSET of TSV writes TSV; the rest is the transfer of
that CPUSET and of the two forms of CPUGET, past the privilege check. -/
theorem onlyCpusetChangesTsv : Obligations.OnlyCpusetChangesTsv := by
  refine ⟨fun s t h => ?_, fun srcx s hl => ?_, fun dst s hd hl => ?_, fun s hl => ?_⟩
  · rcases step_execNext h with ⟨_, rfl⟩ | ⟨w, i, hf, hdec, hn⟩
    · exact .inl rfl
    · rcases execNext_tsv hn with e | ⟨srcx, rfl, hl, e⟩
      · exact .inl e
      · exact .inr ⟨srcx, w, hf, hdec, hl, e.trans (gprOrZero_eq s srcx).symm⟩
  · exact ⟨_, privileged_body s _ hl, rfl⟩
  · exact ⟨_, privileged_body s _ hl, CpuSpecial.deliverCpuValue_reg_same s dst _ _ hd⟩
  · exact ⟨_, privileged_body s _ hl, rfl⟩

/-- Settles O54: read off the kinds of effect, for an instruction and for a step. -/
theorem onlyCogetAndCpusetPswWriteNzvc : Obligations.OnlyCogetAndCpusetPswWriteNzvc := by
  refine ⟨fun i s t h hcostat hcoget hpsw => ?_, fun s t h => ?_⟩
  · rcases execNext_nzvc (exec_next i s t h) with e | ⟨dst, hi⟩ | ⟨dst, src, hi⟩ | ⟨srcx, hi⟩
    · exact e
    · exact absurd hi (hcostat dst)
    · exact absurd hi (hcoget dst src)
    · exact absurd hi (hpsw srcx)
  · rcases step_execNext h with ⟨_, rfl⟩ | ⟨w, i, hf, hdec, hn⟩
    · exact .inl ⟨rfl, rfl, rfl, rfl⟩
    · exact (execNext_nzvc hn).imp id fun hw => ⟨w, i, hf, hdec, hw⟩

/-- Settles O55: read off the kinds of effect, for an instruction and for a step. -/
theorem onlyCpusetPswWritesBcdCarries : Obligations.OnlyCpusetPswWritesBcdCarries := by
  refine ⟨fun i s t h hpsw => ?_, fun s t h => ?_⟩
  · rcases execNext_bcdc (exec_next i s t h) with e | ⟨srcx, hi⟩
    · exact e
    · exact absurd hi (hpsw srcx)
  · rcases step_execNext h with ⟨_, rfl⟩ | ⟨w, i, hf, hdec, hn⟩
    · exact .inl rfl
    · rcases execNext_bcdc hn with e | ⟨srcx, rfl⟩
      · exact .inl e
      · exact .inr ⟨w, srcx, hf, hdec⟩

/-- Settles O56: read off the kinds of effect, for an instruction and for a step. -/
theorem onlyCosetWritesCostat : Obligations.OnlyCosetWritesCostat := by
  refine ⟨fun i s t h hcoset => ?_, fun s t h => ?_⟩
  · rcases execNext_costat (exec_next i s t h) with e | ⟨srcx, hi, _⟩
    · exact e
    · exact absurd hi (hcoset srcx)
  · exact (step_costat h).imp id fun ⟨w, srcx, hf, hdec, _⟩ => ⟨w, srcx, hf, hdec⟩

/-- Settles O57: no kind of effect touches memory or the parameters. -/
theorem noStepWritesMemoryOrParameters : Obligations.NoStepWritesMemoryOrParameters :=
  fun _ _ h => ⟨step_mem h, step_cfg h⟩

/-- Settles O58: a trap of the fetch or of the instruction is trap entry, and every other effect an
unprivileged instruction has keeps the privileged registers. -/
theorem unprivilegedCodeOnlyLeavesByTrap : Obligations.UnprivilegedCodeOnlyLeavesByTrap := by
  intro s t hl h
  have hcases : StaysUnprivileged s t ∨ ∃ c, t = takeTrap (beforeExec s) c := by
    rcases step_execNext h with ⟨va, e⟩ | ⟨_, _, _, _, hn⟩
    · exact .inr ⟨_, e⟩
    · exact execNext_unprivileged hn hl
  rcases hcases with ⟨hlevel, hkept⟩ | ⟨c, rfl⟩
  · exact .inl ⟨hlevel.trans hl, hkept⟩
  · exact .inr ⟨c, rfl, rfl, hl, rfl, rfl, rfl, rfl, fun _ => rfl⟩

end Sys2Proof.Proofs.Rules
end

section
/-! PROOFS. Nibbles of a word, and ADJUST BCD and EX3 on them (41_adjust.md R77 to R79, R91, R92). A
word is the sum of its nibbles' weights; an addition of two words is an addition of each two
nibbles with a carry in and a carry out, and the same carries serve the decimal sum. -/

namespace Sys2Proof.Proofs.Decimal

open Sys2Proof.Machine Sys2Proof.Safety

/-! ### Sums of weighted digits -/

/-- The number whose `n` digits in a base, the lowest first, are `d 0`, `d 1` and so on. -/
def digitSum (base n : Nat) (d : Nat → Nat) : Nat := ∑ i ∈ Finset.range n, d i * base ^ i

/-- The same sum as a list's, as the statements write it. -/
theorem digitSum_eq_listSum (base n : Nat) (d : Nat → Nat) :
    digitSum base n d = ((List.range n).map (fun i => d i * base ^ i)).sum := rfl

theorem digitSum_succ (base n : Nat) (d : Nat → Nat) :
    digitSum base (n + 1) d = digitSum base n d + d n * base ^ n :=
  Finset.sum_range_succ _ n

theorem digitSum_add {base n : Nat} {d e f : Nat → Nat} (h : ∀ i < n, d i = e i + f i) :
    digitSum base n d = digitSum base n e + digitSum base n f := by
  unfold digitSum
  rw [← Finset.sum_add_distrib]
  refine Finset.sum_congr rfl fun i hi => ?_
  rw [h i (Finset.mem_range.1 hi), Nat.add_mul]

/-- Digits below the base make a number of that many digits. -/
theorem digitSum_lt {base n : Nat} {d : Nat → Nat} (h : ∀ i < n, d i < base) :
    digitSum base n d < base ^ n := by
  induction n with
  | zero => simp [digitSum]
  | succ n ih =>
    have hlow := ih fun i hi => h i (by omega)
    have htop : (d n + 1) * base ^ n ≤ base * base ^ n := Nat.mul_le_mul_right _ (h n (by omega))
    rw [digitSum_succ, Nat.pow_succ']
    linarith

/-- A digit below the base is recovered from the number. -/
theorem digitSum_digit {base n : Nat} {d : Nat → Nat} (h : ∀ i < n, d i < base) (j : Nat)
    (hj : j < n) : digitSum base n d / base ^ j % base = d j := by
  have hbase : 0 < base := Nat.zero_lt_of_lt (h j hj)
  induction n with
  | zero => omega
  | succ n ih =>
    have hlow : ∀ i < n, d i < base := fun i hi => h i (by omega)
    rw [digitSum_succ]
    rcases Nat.lt_succ_iff_lt_or_eq.1 hj with hlt | rfl
    · obtain ⟨k, rfl⟩ : ∃ k, n = j + (k + 1) := ⟨n - j - 1, by omega⟩
      have hweight : d (j + (k + 1)) * base ^ (j + (k + 1))
          = base ^ j * (base * (d (j + (k + 1)) * base ^ k)) := by ring
      rw [hweight, Nat.add_mul_div_left _ _ (Nat.pow_pos hbase), Nat.add_mul_mod_self_left]
      exact ih hlow hlt
    · rw [Nat.add_mul_div_right _ _ (Nat.pow_pos hbase), Nat.div_eq_of_lt (digitSum_lt hlow),
        Nat.zero_add, Nat.mod_eq_of_lt (h j hj)]

/-- A number below `base ^ n` is the sum of its `n` weighted digits. -/
theorem digitSum_digits (base n x : Nat) :
    digitSum base n (fun i => x / base ^ i % base) = x % base ^ n := by
  induction n with
  | zero => simp [digitSum, Nat.mod_one]
  | succ n ih => rw [digitSum_succ, ih, Nat.mod_pow_succ, Nat.mul_comm]

/-- Addition digit by digit: where each digit of the sum and its carry out come from two digits and
the carry in, the numbers add up to the sum and the last carry. -/
theorem digitSum_add_carry {base n : Nat} {d e r c : Nat → Nat} (h0 : c 0 = 0)
    (h : ∀ i < n, r i + base * c (i + 1) = d i + e i + c i) :
    digitSum base n r + c n * base ^ n = digitSum base n d + digitSum base n e := by
  induction n with
  | zero => simp [digitSum, h0]
  | succ n ih =>
    have hlow := ih fun i hi => h i (by omega)
    have htop := congrArg (· * base ^ n) (h n (by omega))
    simp only [digitSum_succ, Nat.pow_succ']
    linarith

/-! ### The nibbles of a word -/

theorem nibble_lt (w : Word) (i : Nat) : nibble w i < 16 := Nat.mod_lt _ (by decide)

theorem toNat_eq_digitSum (w : Word) : w.toNat = digitSum 16 8 (nibble w) := by
  exact (Nat.mod_eq_of_lt w.isLt).symm.trans (digitSum_digits 16 8 w.toNat).symm

/-- A word that is the sum of given weighted nibbles has those nibbles. -/
theorem nibble_of_toNat {w : Word} {d : Nat → Nat} (hd : ∀ i < 8, d i < 16)
    (hw : w.toNat = digitSum 16 8 d) (i : Nat) (hi : i < 8) : nibble w i = d i := by
  rw [nibble, hw]
  exact digitSum_digit hd i hi

theorem bcdValue_eq_digitSum (w : Word) : bcdValue w = digitSum 10 8 (nibble w) := rfl

theorem excess3Value_eq_digitSum (w : Word) :
    excess3Value w = digitSum 10 8 (fun i => nibble w i - 3) := rfl

/-! ### The carries of an addition -/

/-- The carry into nibble `i` of the addition of two words. -/
def carryIn (x y : Word) (i : Nat) : Nat :=
  if 16 ^ i ≤ x.toNat % 16 ^ i + y.toNat % 16 ^ i then 1 else 0

theorem carryIn_zero (x y : Word) : carryIn x y 0 = 0 := by
  simp [carryIn, Nat.mod_one]

theorem carryIn_le_one (x y : Word) (i : Nat) : carryIn x y i ≤ 1 := by
  unfold carryIn
  split <;> decide

/-- The wrap of a word addition is above its nibbles. -/
theorem nibble_add (x y : Word) (i : Nat) (hi : i < 8) :
    nibble (x + y) i = (x.toNat + y.toNat) / 16 ^ i % 16 := by
  rw [nibble, BitVec.toNat_add]
  interval_cases i <;> omega

/-- Each nibble of a sum, with its carry out, is the two nibbles and the carry in. -/
theorem nibble_add_carry (x y : Word) (i : Nat) (hi : i < 8) :
    nibble (x + y) i + 16 * carryIn x y (i + 1) = nibble x i + nibble y i + carryIn x y i := by
  have hdiv (j : Nat) : (x.toNat + y.toNat) / 16 ^ j
      = x.toNat / 16 ^ j + y.toNat / 16 ^ j + carryIn x y j :=
    Nat.add_div (Nat.pow_pos (by decide))
  have hhere := hdiv i
  have hnext := hdiv (i + 1)
  simp only [Nat.pow_succ, ← Nat.div_div_eq_div_mul] at hnext
  rw [nibble_add x y i hi, nibble, nibble]
  omega

/-! ### The adjustments as numbers -/

/-- `k` in each nibble whose carry bit is 1. -/
def onSet (bcdc : BitVec 8) (k i : Nat) : Nat := if bcdc.getLsbD i then k else 0

/-- `k` in each nibble whose carry bit is 0. -/
def onClear (bcdc : BitVec 8) (k i : Nat) : Nat := if bcdc.getLsbD i then 0 else k

/-- The nibbles of the bitwise and are those of the two words. -/
theorem nibble_and (x y : Word) (i : Nat) : nibble (x &&& y) i = nibble x i &&& nibble y i := by
  have h16 : 16 ^ i = 2 ^ (4 * i) := by rw [pow_mul]; rfl
  simp only [nibble, BitVec.toNat_and, h16, Nat.and_div_two_pow]
  exact Nat.and_mod_two_pow (n := 4)

theorem nibble_not (w : Word) (i : Nat) (hi : i < 8) : nibble (~~~w) i = 15 - nibble w i := by
  have hlt := w.isLt
  rw [nibble, nibble, BitVec.toNat_not]
  interval_cases i <;> omega

/-- The word E of 41_adjust.md R77 has 15 in each nibble whose carry bit is 1. -/
theorem carryNibbles_toNat (bcdc : BitVec 8) :
    (carryNibbles bcdc).toNat = digitSum 16 8 (onSet bcdc 15) := by
  have hterm (i : Nat) (hi : i < 8) :
      (if bcdc.getLsbD i then 0xF#32 <<< (4 * i) else 0#32).toNat = onSet bcdc 15 i * 16 ^ i := by
    unfold onSet
    cases bcdc.getLsbD i
    · simp
    · interval_cases i <;> rfl
  have hlt : digitSum 16 8 (onSet bcdc 15) < 2 ^ 32 := digitSum_lt fun i _ => by
    unfold onSet
    split <;> decide
  rw [← Nat.mod_eq_of_lt hlt]
  simp only [carryNibbles, List.foldl_cons, List.foldl_nil, BitVec.toNat_add, digitSum,
    Finset.sum_range_succ, Finset.sum_range_zero, Nat.mod_add_mod, BitVec.toNat_ofNat]
  rw [hterm 0 (by decide), hterm 1 (by decide), hterm 2 (by decide), hterm 3 (by decide),
    hterm 4 (by decide), hterm 5 (by decide), hterm 6 (by decide), hterm 7 (by decide)]

theorem nibble_carryNibbles (bcdc : BitVec 8) (i : Nat) (hi : i < 8) :
    nibble (carryNibbles bcdc) i = onSet bcdc 15 i :=
  nibble_of_toNat (fun i _ => by unfold onSet; split <;> decide) (carryNibbles_toNat bcdc) i hi

theorem and_fifteen {k : Nat} (hk : k < 16) : k &&& 15 = k :=
  (Nat.and_two_pow_sub_one_eq_mod k 4).trans (Nat.mod_eq_of_lt hk)

/-- E masks a word of equal nibbles to those whose carry bit is 1. -/
theorem and_carryNibbles_toNat {w : Word} {k : Nat} (bcdc : BitVec 8)
    (hw : ∀ i < 8, nibble w i = k) :
    (w &&& carryNibbles bcdc).toNat = digitSum 16 8 (onSet bcdc k) := by
  rw [toNat_eq_digitSum]
  refine Finset.sum_congr rfl fun i hi => congrArg (· * 16 ^ i) ?_
  have hi8 := Finset.mem_range.1 hi
  have hk : k < 16 := hw i hi8 ▸ nibble_lt w i
  rw [nibble_and, hw i hi8, nibble_carryNibbles bcdc i hi8]
  unfold onSet
  split
  · exact and_fifteen hk
  · exact Nat.and_zero k

/-- The complement of E masks a word of equal nibbles to those whose carry bit is 0. -/
theorem and_not_carryNibbles_toNat {w : Word} {k : Nat} (bcdc : BitVec 8)
    (hw : ∀ i < 8, nibble w i = k) :
    (w &&& ~~~carryNibbles bcdc).toNat = digitSum 16 8 (onClear bcdc k) := by
  rw [toNat_eq_digitSum]
  refine Finset.sum_congr rfl fun i hi => congrArg (· * 16 ^ i) ?_
  have hi8 := Finset.mem_range.1 hi
  have hk : k < 16 := hw i hi8 ▸ nibble_lt w i
  rw [nibble_and, hw i hi8, nibble_not _ i hi8, nibble_carryNibbles bcdc i hi8]
  unfold onSet onClear
  split
  · exact Nat.and_zero k
  · exact and_fifteen hk

/-- BCD takes 6 from each nibble without a carry, modulo 2^32 (41_adjust.md R78). -/
theorem adjBcd_toNat (p : Psw) :
    (adjBcd p).toNat = (2 ^ 32 - digitSum 16 8 (onClear p.bcdc 6)) % 2 ^ 32 := by
  rw [adjBcd, BitVec.toNat_sub, and_not_carryNibbles_toNat p.bcdc (k := 6) (by decide)]
  simp

/-- Excess-3 gives 3 to each nibble with a carry and takes 3 from the others, modulo 2^32
(41_adjust.md R79). -/
theorem adjEx3_toNat (p : Psw) :
    (adjEx3 p).toNat = (2 ^ 32 + digitSum 16 8 (onSet p.bcdc 3)
      - digitSum 16 8 (onClear p.bcdc 3)) % 2 ^ 32 := by
  have hlt : digitSum 16 8 (onClear p.bcdc 3) < 2 ^ 32 := by
    rw [← and_not_carryNibbles_toNat (w := 0x33333333#32) p.bcdc (by decide)]
    exact BitVec.isLt _
  rw [adjEx3, BitVec.toNat_sub, and_not_carryNibbles_toNat p.bcdc (k := 3) (by decide),
    and_carryNibbles_toNat p.bcdc (k := 3) (by decide)]
  omega

/-! ### ADJUST on numbers and on nibbles -/

/-- An addition to a register is modulo 2^32. -/
theorem addsToRegister_mod {i : Instr} {s : State} {dst : RegNum} {a : Nat} :
    AddsToRegister i s dst (a % 2 ^ 32) ↔ AddsToRegister i s dst a := by
  simp only [AddsToRegister, Nat.add_mod_mod]

/-- ADJUST with an adjustment that makes the register the sum of given nibbles leaves them in it. -/
theorem exec_adjust_nibbles {i : Instr} {s : State} {dst : RegNum} {a : Word} {d : Nat → Nat}
    (he : exec i s = adjust a dst s) (hdst : dst ≠ 0#4) (hd : ∀ j < 8, d j < 16)
    (hsum : ((s.reg dst).toNat + a.toNat) % 2 ^ 32 = digitSum 16 8 d) :
    ∃ t, exec i s = .next t ∧ ∀ j < 8, nibble (t.reg dst) j = d j := by
  obtain ⟨t, hnext, hreg, -⟩ := Adjust.addsToRegister_of_exec_eq_adjust he hdst
  exact ⟨t, hnext, nibble_of_toNat hd (hreg.trans hsum)⟩

/-- A weight taken from the nibbles with a clear carry bit, as the statements write it. -/
theorem digitSum_onClear (bcdc : BitVec 8) (k : Nat) :
    digitSum 16 8 (onClear bcdc k)
      = ((List.range 8).map (fun i => if bcdc.getLsbD i then 0 else k * 16 ^ i)).sum := by
  simp only [digitSum_eq_listSum, onClear, ite_mul, Nat.zero_mul]

/-- A weight given to the nibbles with a set carry bit, as the statements write it. -/
theorem digitSum_onSet (bcdc : BitVec 8) (k : Nat) :
    digitSum 16 8 (onSet bcdc k)
      = ((List.range 8).map (fun i => if bcdc.getLsbD i then k * 16 ^ i else 0)).sum := by
  simp only [digitSum_eq_listSum, onSet, ite_mul, Nat.zero_mul]

/-! ### The statements -/

/-- Settles O4: ADJUST with the adjustment `adjBcd`, as a number. -/
theorem adjustBcdSubtractsSixPerClearCarry :
    Obligations.AdjustBcdSubtractsSixPerClearCarry := by
  intro dst s hd
  rw [← digitSum_onClear, ← addsToRegister_mod, ← adjBcd_toNat]
  exact Adjust.addsToRegister_of_exec_eq_adjust rfl hd

/-- Settles O5: ADJUST with the adjustment `adjEx3`, as a number. -/
theorem adjustEx3AddsOrSubtractsThree : Obligations.AdjustEx3AddsOrSubtractsThree := by
  intro dst s hd
  rw [← digitSum_onClear, ← digitSum_onSet, ← addsToRegister_mod, ← adjEx3_toNat]
  exact Adjust.addsToRegister_of_exec_eq_adjust rfl hd

/-- Settles O6: the register is the sum of the new nibbles and of what BCD takes from them. -/
theorem adjustBcdActsNibblewise : Obligations.AdjustBcdActsNibblewise := by
  intro dst s hdst hge
  refine exec_adjust_nibbles (a := adjBcd s.psw) rfl hdst
    (fun i _ => (Nat.sub_le _ _).trans_lt (nibble_lt _ i)) ?_
  have hsplit : digitSum 16 8 (nibble (s.reg dst)) = digitSum 16 8 _ + digitSum 16 8 _ :=
    digitSum_add fun i hi => (Nat.sub_add_cancel (m := onClear s.psw.bcdc 6 i) ?_).symm
  · rw [← toNat_eq_digitSum] at hsplit
    have hlt := (s.reg dst).isLt
    change _ = digitSum 16 8 (fun i => nibble (s.reg dst) i - onClear s.psw.bcdc 6 i)
    rw [adjBcd_toNat]
    omega
  · cases hb : s.psw.bcdc.getLsbD i with
    | false => simpa [onClear, hb] using hge i hi hb
    | true => simp [onClear, hb]

/-- A nibble after ADJUST EX3: 3 more with a carry, 3 less without (41_adjust.md R79). -/
def ex3Nibble (bcdc : BitVec 8) (w : Word) (i : Nat) : Nat :=
  if bcdc.getLsbD i then nibble w i + 3 else nibble w i - 3

/-- A nibble that neither overflows nor underflows, before and after ADJUST EX3. -/
theorem ex3Nibble_spec (bcdc : BitVec 8) (w : Word) (i : Nat)
    (h : if bcdc.getLsbD i then nibble w i ≤ 12 else 3 ≤ nibble w i) :
    ex3Nibble bcdc w i < 16
      ∧ ex3Nibble bcdc w i + onClear bcdc 3 i = nibble w i + onSet bcdc 3 i := by
  have hlt := nibble_lt w i
  unfold ex3Nibble onClear onSet
  split at h
  · next hb =>
    simp only [if_pos hb, and_true]
    omega
  · next hb =>
    simp only [if_neg hb]
    omega

/-- Settles O7: the register with what EX3 gives it is the sum of the new nibbles and of what EX3
takes from them. -/
theorem adjustEx3ActsNibblewise : Obligations.AdjustEx3ActsNibblewise := by
  intro dst s hdst hrange
  have hspec := fun i (hi : i < 8) => ex3Nibble_spec s.psw.bcdc (s.reg dst) i (hrange i hi)
  refine exec_adjust_nibbles (a := adjEx3 s.psw) (d := ex3Nibble s.psw.bcdc (s.reg dst)) rfl hdst
    (fun i hi => (hspec i hi).1) ?_
  have hsplit := (digitSum_add (base := 16) fun i hi => (hspec i hi).2.symm).symm.trans
    (digitSum_add fun _ _ => rfl)
  have hlt := digitSum_lt (n := 8) fun i hi => (hspec i hi).1
  rw [← toNat_eq_digitSum] at hsplit
  rw [adjEx3_toNat]
  omega

/-! ### Decimal sums -/

/-- The last carry of a decimal addition is lost. -/
theorem digitSum_add_carry_mod {base n : Nat} {d e r c : Nat → Nat} (h0 : c 0 = 0)
    (hr : ∀ i < n, r i < base) (h : ∀ i < n, r i + base * c (i + 1) = d i + e i + c i) :
    digitSum base n r = (digitSum base n d + digitSum base n e) % base ^ n := by
  rw [← digitSum_add_carry h0 h, Nat.add_mul_mod_self_right, Nat.mod_eq_of_lt (digitSum_lt hr)]

/-- A carry field that holds the carries of an addition: bit `i` is the carry out of nibble `i`. -/
theorem carryIn_succ_eq {x y : Word} {b : Bool} {i : Nat}
    (h : b = true ↔ 16 ^ (i + 1) ≤ x.toNat % 16 ^ (i + 1) + y.toNat % 16 ^ (i + 1)) :
    carryIn x y (i + 1) = b.toNat := by
  unfold carryIn
  cases b <;> simp_all

/-- Adding 6 to each decimal digit carries nowhere. -/
theorem nibble_add_sixes {x : Word} (hx : IsBcd x) (i : Nat) (hi : i < 8) :
    nibble (x + 0x66666666#32) i = nibble x i + 6 := by
  have hsix : ∀ i < 8, nibble 0x66666666#32 i = 6 := by decide
  have hcarry : carryIn x 0x66666666#32 i = 0 := by
    induction i with
    | zero => exact carryIn_zero x _
    | succ i ih =>
      have hsum := nibble_add_carry x 0x66666666#32 i (by omega)
      have hdigit := hx i (by omega)
      rw [hsix i (by omega), ih (by omega)] at hsum
      omega
  have hsum := nibble_add_carry x 0x66666666#32 i hi
  have hle := nibble_lt (x + 0x66666666#32) i
  have hdigit := hx i hi
  rw [hsix i hi, hcarry] at hsum
  omega

/-- One nibble of BCD: with 6 added before the sum, its carry is the decimal carry, and ADJUST takes
the 6 back where there is none. -/
theorem bcd_nibble {b : Bool} {r x y c : Nat} (hr : r < 16) (hx : x ≤ 9) (hy : y ≤ 9) (hc : c ≤ 1)
    (h : r + 16 * b.toNat = x + 6 + y + c) :
    r - (if b then 0 else 6) ≤ 9 ∧ r - (if b then 0 else 6) + 10 * b.toNat = x + y + c := by
  cases b with
  | false =>
    change r + 16 * 0 = _ at h
    change r - 6 ≤ 9 ∧ r - 6 + 10 * 0 = _
    omega
  | true =>
    change r + 16 * 1 = _ at h
    change r - 0 ≤ 9 ∧ r - 0 + 10 * 1 = _
    omega

/-- One nibble of excess-3: its carry is the decimal carry, ADJUST does not leave the nibble, and
leaves the code of the decimal digit in it. -/
theorem ex3_nibble {b : Bool} {r x y c : Nat} (hr : r < 16) (hx : 3 ≤ x ∧ x ≤ 12)
    (hy : 3 ≤ y ∧ y ≤ 12) (hc : c ≤ 1) (h : r + 16 * b.toNat = x + y + c) :
    (if b then r ≤ 12 else 3 ≤ r)
      ∧ (3 ≤ (if b then r + 3 else r - 3) ∧ (if b then r + 3 else r - 3) ≤ 12)
      ∧ (if b then r + 3 else r - 3) - 3 + 10 * b.toNat = x - 3 + (y - 3) + c := by
  cases b with
  | false =>
    change r + 16 * 0 = _ at h
    change 3 ≤ r ∧ (3 ≤ r - 3 ∧ r - 3 ≤ 12) ∧ r - 3 - 3 + 10 * 0 = _
    omega
  | true =>
    change r + 16 * 1 = _ at h
    change r ≤ 12 ∧ (3 ≤ r + 3 ∧ r + 3 ≤ 12) ∧ r + 3 - 3 + 10 * 1 = _
    omega

/-- Settles O8: nibble by nibble ADJUST BCD turns the sum with 6 in each nibble into the decimal
digit of the sum, with the same carries. -/
theorem adjustBcdCorrectsDecimalSum : Obligations.AdjustBcdCorrectsDecimalSum := by
  intro dst s x y hdst hx hy hreg hbits
  have hbit : ∀ i < 8, carryIn (x + 0x66666666#32) y (i + 1) = (s.psw.bcdc.getLsbD i).toNat :=
    fun i hi => carryIn_succ_eq (hbits i hi)
  have hsum : ∀ i < 8, nibble (s.reg dst) i + 16 * (s.psw.bcdc.getLsbD i).toNat
      = nibble x i + 6 + nibble y i + carryIn (x + 0x66666666#32) y i := by
    intro i hi
    rw [hreg, ← hbit i hi, nibble_add_carry _ y i hi, nibble_add_sixes hx i hi]
  obtain ⟨t, hnext, hnib⟩ := adjustBcdActsNibblewise dst s hdst fun i hi hb => by
    have := hsum i hi
    rw [hb, Bool.toNat_false] at this
    omega
  have hdigit : ∀ i < 8, nibble (t.reg dst) i ≤ 9
      ∧ nibble (t.reg dst) i + 10 * carryIn (x + 0x66666666#32) y (i + 1)
        = nibble x i + nibble y i + carryIn (x + 0x66666666#32) y i := by
    intro i hi
    rw [hnib i hi, hbit i hi]
    exact bcd_nibble (nibble_lt _ i) (hx i hi) (hy i hi) (carryIn_le_one _ y i) (hsum i hi)
  refine ⟨t, hnext, fun i hi => (hdigit i hi).1, ?_⟩
  simp only [bcdValue_eq_digitSum]
  exact digitSum_add_carry_mod (carryIn_zero _ y)
    (fun i hi => Nat.lt_succ_of_le (hdigit i hi).1) fun i hi => (hdigit i hi).2

/-- Settles O9: nibble by nibble ADJUST EX3 turns the sum of two excess-3 codes into the code of the
decimal digit of the sum, with the same carries. -/
theorem adjustEx3CorrectsDecimalSum : Obligations.AdjustEx3CorrectsDecimalSum := by
  intro dst s x y hdst hx hy hreg hbits
  have hbit : ∀ i < 8, carryIn x y (i + 1) = (s.psw.bcdc.getLsbD i).toNat :=
    fun i hi => carryIn_succ_eq (hbits i hi)
  have hsum : ∀ i < 8, nibble (s.reg dst) i + 16 * (s.psw.bcdc.getLsbD i).toNat
      = nibble x i + nibble y i + carryIn x y i := by
    intro i hi
    rw [hreg, ← hbit i hi, nibble_add_carry x y i hi]
  have hnibble := fun i (hi : i < 8) =>
    ex3_nibble (nibble_lt _ i) (hx i hi) (hy i hi) (carryIn_le_one x y i) (hsum i hi)
  obtain ⟨t, hnext, hnib⟩ := adjustEx3ActsNibblewise dst s hdst fun i hi => (hnibble i hi).1
  have hdigit : ∀ i < 8, (3 ≤ nibble (t.reg dst) i ∧ nibble (t.reg dst) i ≤ 12)
      ∧ nibble (t.reg dst) i - 3 + 10 * carryIn x y (i + 1)
        = nibble x i - 3 + (nibble y i - 3) + carryIn x y i := by
    intro i hi
    rw [hnib i hi, hbit i hi]
    exact (hnibble i hi).2
  refine ⟨t, hnext, fun i hi => (hdigit i hi).1, ?_⟩
  simp only [excess3Value_eq_digitSum]
  refine digitSum_add_carry_mod (carryIn_zero x y) (fun i hi => ?_) fun i hi => (hdigit i hi).2
  have := (hdigit i hi).1
  omega

end Sys2Proof.Proofs.Decimal
end

section
/-! PROOFS. The word of the PSW under any layout (10_state.md R15, 44_cpu_special.md R129, R131):
which bits it has, and that it is read back field by field. -/

namespace Sys2Proof.Proofs.PswWord

open Sys2Proof.Machine Sys2Proof.Config Sys2Proof.Safety

/-! ### Bits placed in a word and gathered from it -/

/-- A bit of the word is 1 exactly when a 1 is placed there. -/
theorem getLsbD_placeBits (fields : List (Fin 32 × Bool)) (j : Nat) :
    (placeBits fields).getLsbD j = true ↔ ∃ f ∈ fields, f.1.val = j ∧ f.2 = true := by
  induction fields with
  | nil => simp [placeBits]
  | cons f fields ih =>
    obtain ⟨pos, b⟩ := f
    have hbit : (if b then 1#32 <<< pos.val else 0#32).getLsbD j = true
        ↔ pos.val = j ∧ b = true := by
      cases b
      · simp
      · simp [← BitVec.twoPow_eq, BitVec.getLsbD_twoPow]
    rw [placeBits, BitVec.getLsbD_or, Bool.or_eq_true, hbit, ih, List.exists_mem_cons_iff]

/-- Where no two fields share a position, each field's bit stands at its position. -/
theorem getLsbD_placeBits_of_nodup {fields : List (Fin 32 × Bool)}
    (hnodup : (fields.map Prod.fst).Nodup) {f : Fin 32 × Bool} (hf : f ∈ fields) :
    (placeBits fields).getLsbD f.1.val = f.2 := by
  rw [Bool.eq_iff_iff, getLsbD_placeBits fields _]
  constructor
  · rintro ⟨g, hg, hpos, hbit⟩
    rwa [← List.inj_on_of_nodup_map hnodup hg hf (Fin.ext hpos)]
  · exact fun hbit => ⟨f, hf, rfl, hbit⟩

@[simp] theorem getLsbD_gatherBits {n : Nat} (pos : Vector (Fin 32) n) (v : Word) (i : Fin n) :
    (gatherBits pos v).getLsbD i.val = v.getLsbD pos[i.val].val := by
  simp [gatherBits]

/-- A field is gathered whole where each of its bits stands at its position. -/
theorem gatherBits_eq {n : Nat} {pos : Vector (Fin 32) n} {v : Word} {field : BitVec n}
    (h : ∀ i : Fin n, v.getLsbD pos[i.val].val = field.getLsbD i.val) :
    gatherBits pos v = field :=
  BitVec.eq_of_getLsbD_eq fun i hi => (getLsbD_gatherBits pos v ⟨i, hi⟩).trans (h ⟨i, hi⟩)

/-! ### The named bits of the PSW -/

theorem pswBits_positions (l : PswLayout) (p : Psw) :
    (pswBits l p).map Prod.fst = pswPositions l := by
  have hvec {n : Nat} (pos : Vector (Fin 32) n) :
      List.ofFn (fun i : Fin n => pos[i.val]) = pos.toList := by
    rw [← Vector.toList_ofFn, Vector.ofFn_getElem]
  simp only [pswBits, pswPositions, List.map_append, List.map_cons, List.map_nil, List.map_ofFn,
    Function.comp_def, hvec]

/-- Under a valid layout the implemented bits of the PSW word hold each named bit at its
position. -/
theorem getLsbD_pswWord_of_valid {l : PswLayout} {mask : Word} (hl : PswLayoutValid l mask)
    (p : Psw) {f : Fin 32 × Bool} (hf : f ∈ pswBits l p) :
    (pswWord l p &&& mask).getLsbD f.1.val = f.2 := by
  obtain ⟨hnodup, himpl⟩ := hl
  rw [← pswBits_positions l p] at hnodup himpl
  rw [BitVec.getLsbD_and, pswWord, getLsbD_placeBits_of_nodup hnodup hf,
    himpl f.1 (List.mem_map_of_mem hf), Bool.and_true]

theorem mem_pswBits_bcdc (l : PswLayout) (p : Psw) (i : Fin 8) :
    (l.bcdc[i.val], p.bcdc.getLsbD i.val) ∈ pswBits l p := by
  simp only [pswBits, List.mem_append, List.mem_ofFn]
  exact .inl (.inl (.inr ⟨i, rfl⟩))

theorem mem_pswBits_oldLevel (l : PswLayout) (p : Psw) (i : Fin 4) :
    (l.oldLevel[i.val], p.oldLevel.getLsbD i.val) ∈ pswBits l p := by
  simp only [pswBits, List.mem_append, List.mem_ofFn]
  exact .inl (.inr ⟨i, rfl⟩)

theorem mem_pswBits_level (l : PswLayout) (p : Psw) (i : Fin 4) :
    (l.level[i.val], p.level.getLsbD i.val) ∈ pswBits l p := by
  simp only [pswBits, List.mem_append, List.mem_ofFn]
  exact .inr ⟨i, rfl⟩

/-! ### The default layout -/

/-- The PSW word is the word that agrees with each named bit and is zero at every other position
(44_cpu_special.md R129). -/
theorem pswWord_eq_of_bits {l : PswLayout} {p : Psw} {w : Word}
    (hbit : ∀ f ∈ pswBits l p, w.getLsbD f.1.val = f.2)
    (hzero : ∀ j < 32, (∀ pos ∈ pswPositions l, pos.val ≠ j) → w.getLsbD j = false) :
    pswWord l p = w := by
  refine BitVec.eq_of_getLsbD_eq fun j hj => ?_
  rw [Bool.eq_iff_iff, pswWord, getLsbD_placeBits _ j]
  constructor
  · rintro ⟨f, hf, rfl, hone⟩
    rw [hbit f hf, hone]
  · intro hone
    by_contra hnone
    refine Bool.false_ne_true ((hzero j hj fun pos hpos heq => hnone ?_).symm.trans hone)
    rw [← pswBits_positions l p] at hpos
    obtain ⟨f, hf, rfl⟩ := List.mem_map.1 hpos
    exact ⟨f, hf, heq, by rw [← hbit f hf, heq, hone]⟩

/-- The fields of the default layout side by side (10_state.md R15). -/
def defaultPswWord (p : Psw) : Word :=
  p.level ++ p.oldLevel ++ 0#8 ++ p.bcdc ++ 0#4 ++ BitVec.ofBool p.n ++ BitVec.ofBool p.z
    ++ BitVec.ofBool p.v ++ BitVec.ofBool p.c

theorem defaultPswWord_bcdc (p : Psw) (i : Nat) (hi : i < 8) :
    (defaultPswWord p).getLsbD (8 + i) = p.bcdc.getLsbD i := by
  simp only [defaultPswWord, BitVec.getLsbD_append]
  interval_cases i <;> simp

theorem defaultPswWord_oldLevel (p : Psw) (i : Nat) (hi : i < 4) :
    (defaultPswWord p).getLsbD (24 + i) = p.oldLevel.getLsbD i := by
  simp only [defaultPswWord, BitVec.getLsbD_append]
  interval_cases i <;> simp

theorem defaultPswWord_level (p : Psw) (i : Nat) (hi : i < 4) :
    (defaultPswWord p).getLsbD (28 + i) = p.level.getLsbD i := by
  simp only [defaultPswWord, BitVec.getLsbD_append]
  interval_cases i <;> simp

/-- The positions of no field: bits 7 to 4 and 23 to 16. -/
theorem defaultPswWord_other (p : Psw) (j : Nat) (hj : 4 ≤ j ∧ j < 8 ∨ 16 ≤ j ∧ j < 24) :
    (defaultPswWord p).getLsbD j = false := by
  simp only [defaultPswWord, BitVec.getLsbD_append]
  rcases hj with ⟨hlo, hhi⟩ | ⟨hlo, hhi⟩
  · interval_cases j <;> simp
  · interval_cases j <;> simp

theorem pswWord_default (p : Psw) : pswWord defaultPswLayout p = defaultPswWord p := by
  refine pswWord_eq_of_bits (fun f hf => ?_) fun j hj hfree => ?_
  · simp only [pswBits, List.mem_append, List.mem_ofFn, List.mem_cons, List.not_mem_nil,
      or_false] at hf
    rcases hf with (((rfl | rfl | rfl | rfl) | ⟨i, rfl⟩) | ⟨i, rfl⟩) | ⟨i, rfl⟩
    iterate 4
      · simp only [defaultPswWord, defaultPswLayout, BitVec.getLsbD_append]
        simp
    · have hpos : ∀ i : Fin 8, defaultPswLayout.bcdc[i.val].val = 8 + i.val := by decide
      exact (congrArg (defaultPswWord p).getLsbD (hpos i)).trans
        (defaultPswWord_bcdc p i.val i.isLt)
    · have hpos : ∀ i : Fin 4, defaultPswLayout.oldLevel[i.val].val = 24 + i.val := by decide
      exact (congrArg (defaultPswWord p).getLsbD (hpos i)).trans
        (defaultPswWord_oldLevel p i.val i.isLt)
    · have hpos : ∀ i : Fin 4, defaultPswLayout.level[i.val].val = 28 + i.val := by decide
      exact (congrArg (defaultPswWord p).getLsbD (hpos i)).trans
        (defaultPswWord_level p i.val i.isLt)
  · have hother : ∀ j < 32, (∀ pos ∈ pswPositions defaultPswLayout, pos.val ≠ j) →
        4 ≤ j ∧ j < 8 ∨ 16 ≤ j ∧ j < 24 := by decide
    exact defaultPswWord_other p j (hother j hj hfree)

/-! ### The statements -/

/-- CPUGET of the PSW to a general register gives it the PSW word, at a privileged level. -/
theorem exec_cpuget_psw (dst : RegNum) (s : State) (hd : dst ≠ 0#4)
    (hl : s.psw.level ≠ unprivilegedLevel) :
    ∃ t, exec (.cpuget dst .psw) s = .next t ∧ t.reg dst = pswWord s.cfg.pswLayout s.psw :=
  ⟨_, privileged_body s _ hl, CpuSpecial.deliverCpuValue_reg_same s dst _ _ hd⟩

/-- Settles O15: the word is made by placing the named bits. -/
theorem cpugetPswHasFieldsAtTheirPositions :
    Obligations.CpugetPswHasFieldsAtTheirPositions := by
  intro dst s hd hl
  obtain ⟨t, hnext, hreg⟩ := exec_cpuget_psw dst s hd hl
  refine ⟨t, hnext, fun j _ => ?_⟩
  rw [hreg]
  exact getLsbD_placeBits _ j

/-- Settles O16: the fields of the default layout stand side by side. -/
theorem cpugetPswUnderDefaultLayout : Obligations.CpugetPswUnderDefaultLayout := by
  intro dst s hd hl hlayout
  obtain ⟨t, hnext, hreg⟩ := exec_cpuget_psw dst s hd hl
  rw [hlayout, pswWord_default] at hreg
  exact ⟨t, hnext, hreg⟩

/-- Settles O23: each field is read back from its own positions. -/
theorem pswWordRoundTrip : Obligations.PswWordRoundTrip := by
  intro l mask p hvalid
  have hbit {f : Fin 32 × Bool} (hf : f ∈ pswBits l p) :=
    getLsbD_pswWord_of_valid hvalid p hf
  have hn := hbit (f := (l.n, p.n)) (by simp [pswBits])
  have hz := hbit (f := (l.z, p.z)) (by simp [pswBits])
  have hv := hbit (f := (l.v, p.v)) (by simp [pswBits])
  have hc := hbit (f := (l.c, p.c)) (by simp [pswBits])
  have hbcdc := gatherBits_eq fun i => hbit (mem_pswBits_bcdc l p i)
  have hold := gatherBits_eq fun i => hbit (mem_pswBits_oldLevel l p i)
  have hlevel := gatherBits_eq fun i => hbit (mem_pswBits_level l p i)
  simp only at hn hz hv hc
  simp only [pswOfWord, hn, hz, hv, hc, hbcdc, hold, hlevel]

end Sys2Proof.Proofs.PswWord
end

section
/-! PROOFS. PLUS (42_plus.md), and the reserved and undefined words (30_encoding.md R62, R63). -/

namespace Sys2Proof.Proofs.PlusReserved

open Sys2Proof.Machine Sys2Proof.Safety

/-- With dst = 1..15 PLUS is the addition ADJUST does, of its source operand (42_plus.md R100). -/
theorem execPlus_eq_adjust (dst src : RegNum) (s : State) (hd : dst ≠ 0#4) :
    execPlus dst src s = adjust (gprOrPc s src) dst s := by
  simp [execPlus, adjust, hd]

/-- The pc as an operand wraps modulo 2^32 (10_state.md R13). -/
theorem pcOperand_toNat (s : State) :
    (pcOperand s).toNat
      = (s.pc.toNat + (pcOffsetBytes s.cfg.pcOperandOffset).toNat) % 2 ^ 32 :=
  BitVec.toNat_add _ _

theorem reserved_trap (why : Refusal) (s : State) (h : s.cfg.reservedPolicy = .trap) :
    reserved why s = .next (takeTrap s .unimplementedInstruction) := by
  simp [reserved, h]

theorem reserved_refuse (why : Refusal) (s : State) (h : s.cfg.reservedPolicy = .refuse) :
    reserved why s = .refused why := by
  simp [reserved, h]

/-- Settles O10: PLUS adds its source register. -/
theorem plusAddsRegister : Obligations.PlusAddsRegister := by
  intro dst src s hd hs
  rw [← gprOrPc_reg s src hs]
  exact Adjust.addsToRegister_of_exec_eq_adjust (execPlus_eq_adjust dst src s hd) hd

/-- Settles O11: PLUS with src = 0 adds the pc operand, which the parameter puts 0 or 2 bytes past
the pc. -/
theorem plusOfZeroAddsProgramCounter : Obligations.PlusOfZeroAddsProgramCounter := by
  intro dst s hd
  have hadd := Adjust.addsToRegister_of_exec_eq_adjust (i := .plus dst 0#4)
    (execPlus_eq_adjust dst 0#4 s hd) hd
  rw [gprOrPc_zero, pcOperand_toNat, Decimal.addsToRegister_mod] at hadd
  constructor
  · intro hoffset
    rwa [hoffset] at hadd
  · intro hoffset
    rwa [hoffset] at hadd

/-- Settles O12: each of the six rows is `reserved` with the reason of its rule. -/
theorem reservedWordsFollowPolicy : Obligations.ReservedWordsFollowPolicy := by
  intro f s
  constructor
  · intro h
    have htrap (why : Refusal) := reserved_trap why s h
    exact ⟨htrap _, htrap _, htrap _, htrap _, htrap _, htrap _⟩
  · intro h
    have hrefuse (why : Refusal) := reserved_refuse why s h
    exact ⟨hrefuse _, hrefuse _, hrefuse _, hrefuse _, hrefuse _, hrefuse _⟩

/-- Settles O13: the meaning of the two rows is the refusal. -/
theorem undefinedFunctionCodesAreRefused : Obligations.UndefinedFunctionCodesAreRefused :=
  fun _ _ _ => ⟨rfl, rfl⟩

end Sys2Proof.Proofs.PlusReserved
end

section
/-! PROOFS. CPUSET and CPUGET past the privilege check (44_cpu_special.md section 1): CPUGET to the
pc, the writes of CPUSET, and the registers the source does not define. -/

namespace Sys2Proof.Proofs.CpuAccesses

open Sys2Proof.Machine Sys2Proof.Config Sys2Proof.Safety

/-! ### The transfers -/

/-- CPUGET to the pc returns to the value read; a read of CYC has drawn besides. -/
theorem deliverCpuValue_toPc (s : State) (v : Word) (n : Nat) :
    (deliverCpuValue s 0#4 v n).pc = v
      ∧ (deliverCpuValue s 0#4 v n).psw = { s.psw with level := s.psw.oldLevel }
      ∧ SameRegs s (deliverCpuValue s 0#4 v n)
      ∧ SameBeyondRegsAndPsw s (deliverCpuValue s 0#4 v n) := by
  refine ⟨?_, ?_, ?_, CpuSpecial.sameBeyondRegsAndPsw_deliverCpuValue s 0#4 v n⟩
  all_goals rw [deliverCpuValue_zero]
  · rfl
  · rfl
  · exact fun _ => rfl

/-- The mark (0) written out: a field that holds 0 reads as the register read does. -/
theorem zero_or_reg_eq (s : State) (f : RegNum) :
    (if f = 0#4 then 0#32 else s.reg f) = s.reg f :=
  gprOrZero_eq s f

/-- CPUSET of a defined register writes the source register, at a privileged level. -/
theorem exec_cpuset (srcx : RegNum) (r : CpuReg) (s : State)
    (hl : s.psw.level ≠ unprivilegedLevel) :
    exec (.cpuset srcx r) s = .next (cpuWrite s r (s.reg srcx)).advance := by
  rw [← gprOrZero_eq s srcx]
  exact privileged_body s _ hl

/-- What CPUSET leaves unchanged whatever its register: all but the PSW, TPC, TMA, TSV and CYC. -/
theorem cpuWrite_advance_frame (s : State) (r : CpuReg) (v : Word) :
    (cpuWrite s r v).advance.mmu = s.mmu ∧ (cpuWrite s r v).advance.extra = s.extra
      ∧ (cpuWrite s r v).advance.pc = s.pc + 2#32 ∧ SameRegs s (cpuWrite s r v).advance
      ∧ SameCoprocessors s (cpuWrite s r v).advance ∧ SameMemory s (cpuWrite s r v).advance
      ∧ (cpuWrite s r v).advance.cfg = s.cfg := by
  simp [SameRegs, SameCoprocessors, SameMemory]

/-! ### The cells of the undefined registers -/

theorem extraCell_setExtraCell_same (s : State) (x : ExtraReg) (v : Word) :
    (s.setExtraCell x v).extraCell x = v := by
  cases x <;> simp [State.extraCell, State.setExtraCell]

theorem extraCell_setExtraCell_other (s : State) (x y : ExtraReg) (v : Word) (h : y ≠ x) :
    (s.setExtraCell x v).extraCell y = s.extraCell y := by
  cases x with
  | mmu i =>
    cases y with
    | mmu j =>
      have hij : i.val ≠ j.val := fun e => h (congrArg _ (Fin.ext e.symm))
      simp [State.extraCell, State.setExtraCell, hij]
    | other j => rfl
  | other i =>
    cases y with
    | mmu j => rfl
    | other j =>
      have hij : i.val ≠ j.val := fun e => h (congrArg _ (Fin.ext e.symm))
      simp [State.extraCell, State.setExtraCell, hij]

/-- CPUGET and CPUSET of a register that the CPU implements do the access, at a privileged level. -/
theorem exec_cpuUndefined_supplied (a : CpuAccess) (f : RegNum) (x : ExtraReg) (s : State)
    (hl : s.psw.level ≠ unprivilegedLevel) (hx : x ∈ s.cfg.extraCpuRegs) :
    exec (.cpuUndefined a f x) s = .next (extraCpuAccess a f x s) := by
  rcases execCpuUndefined_cases a f x s with ⟨h, _⟩ | ⟨_, _, e⟩ | ⟨_, h, _⟩
  · exact absurd h hl
  · exact e
  · exact absurd hx h

/-- Of a register that it does not implement, they follow the policy. -/
theorem exec_cpuUndefined_missing (a : CpuAccess) (f : RegNum) (x : ExtraReg) (s : State)
    (hl : s.psw.level ≠ unprivilegedLevel) (hx : x ∉ s.cfg.extraCpuRegs) :
    exec (.cpuUndefined a f x) s = reserved .undefinedCpuRegister s := by
  rcases execCpuUndefined_cases a f x s with ⟨h, _⟩ | ⟨_, h, _⟩ | ⟨_, _, e⟩
  · exact absurd h hl
  · exact absurd h hx
  · exact e

/-! ### The statements -/

/-- Settles O17: past the privilege check CPUGET transfers `cpuRead s src` to the pc. -/
theorem cpugetOfZeroLoadsPcAndRestoresLevel :
    Obligations.CpugetOfZeroLoadsPcAndRestoresLevel := by
  intro src s hl
  obtain ⟨hpc, hrest⟩ := deliverCpuValue_toPc s (cpuRead s src) (drawsAfterRead s src)
  refine ⟨_, privileged_body s _ hl, ?psw, ?tpc, ?tma, ?tsv, hrest⟩
  all_goals
    rintro rfl
    exact hpc

/-- Settles O19: the write of one register, in the frame of every CPUSET. -/
theorem cpusetWritesTrapRegisters : Obligations.CpusetWritesTrapRegisters := by
  intro srcx s v hl hzero hreg
  obtain rfl : v = s.reg srcx := by
    by_cases h : srcx = 0#4
    · rw [hzero h, h, reg_zero]
    · exact hreg h
  refine ⟨⟨_, exec_cpuset srcx .tpc s hl, rfl, rfl, rfl, rfl, ?_⟩,
    ⟨_, exec_cpuset srcx .tma s hl, rfl, rfl, rfl, rfl, ?_⟩,
    ⟨_, exec_cpuset srcx .tsv s hl, rfl, rfl, rfl, rfl, ?_⟩⟩
  all_goals
    obtain ⟨hmmu, hextra, hpc, hregs, hrest⟩ := cpuWrite_advance_frame s _ (s.reg srcx)
    exact ⟨hmmu, hextra, hpc, hregs, rfl, hrest⟩

/-- Settles O20: each bit of a field is gathered from its position in the masked value. -/
theorem cpusetPswWritesEveryField : Obligations.CpusetPswWritesEveryField := by
  intro srcx s v hl hv
  obtain rfl : v = s.reg srcx &&& s.cfg.pswImplMask := by
    rw [hv, zero_or_reg_eq]
  obtain ⟨hmmu, hextra, hpc, hregs, hrest⟩ := cpuWrite_advance_frame s .psw (s.reg srcx)
  exact ⟨_, exec_cpuset srcx .psw s hl, rfl, rfl, rfl, rfl,
    PswWord.getLsbD_gatherBits _ _, PswWord.getLsbD_gatherBits _ _,
    PswWord.getLsbD_gatherBits _ _, hpc, hregs, ⟨rfl, rfl, rfl, rfl, hmmu, hextra⟩, hrest⟩

/-- Settles O21: the write of CYC, in the frame of every CPUSET. -/
theorem cpusetCycCompletes : Obligations.CpusetCycCompletes := by
  intro srcx s hl
  obtain ⟨hmmu, hextra, hpc, hregs, hrest⟩ := cpuWrite_advance_frame s .cyc (s.reg srcx)
  exact ⟨_, exec_cpuset srcx .cyc s hl, hpc, rfl, rfl, rfl, hmmu, hextra, hregs, rfl, hrest⟩

/-- Settles O22: each of the five begins with the privilege check. -/
theorem privilegedInstructionsTrapAtLevel15 :
    Obligations.PrivilegedInstructionsTrapAtLevel15 := by
  intro f r x a s hl
  have htrap (body : Result) := privileged_trap s body hl
  exact ⟨htrap _, htrap _, htrap _, htrap _, htrap _⟩

/-- Settles O24: the access to the register's own cell, and the two transfers of CPUGET. -/
theorem suppliedExtraRegistersAreReadAndWritten :
    Obligations.SuppliedExtraRegistersAreReadAndWritten := by
  intro f x s hl hx
  have hexec (a : CpuAccess) (g : RegNum) := exec_cpuUndefined_supplied a g x s hl hx
  refine ⟨?set, fun hf => ?get, ?pc⟩
  case set =>
    refine ⟨_, hexec .set f, ?_, fun y hy => extraCell_setExtraCell_other s x y _ hy, rfl,
      fun _ => rfl, rfl, rfl, rfl, rfl, rfl, ⟨rfl, rfl⟩, fun _ => rfl, rfl⟩
    rw [← gprOrZero_eq s f]
    exact extraCell_setExtraCell_same s x _
  case get =>
    exact ⟨_, hexec .get f, CpuSpecial.deliverCpuValue_reg_same s f _ _ hf,
      CpuSpecial.deliverCpuValue_pc s f _ _ hf,
      CpuSpecial.sameRegsExcept_deliverCpuValue s f _ _ hf,
      CpuSpecial.deliverCpuValue_psw s f _ _ hf,
      CpuSpecial.sameBeyondRegsAndPsw_deliverCpuValue s f _ _⟩
  case pc => exact ⟨_, hexec .get 0#4, deliverCpuValue_toPc s _ _⟩

/-- Settles O25: past the privilege check such an access is a reserved word. -/
theorem missingSpecialRegistersFollowPolicy :
    Obligations.MissingSpecialRegistersFollowPolicy := by
  intro a f x s hl hx
  rw [exec_cpuUndefined_missing a f x s hl hx]
  exact ⟨PlusReserved.reserved_refuse _ s, PlusReserved.reserved_trap _ s⟩

end Sys2Proof.Proofs.CpuAccesses
end

section
/-! PROOFS. Trap entry and the return (60_exceptions.md R150, R152, R153). -/

namespace Sys2Proof.Proofs.Traps

open Sys2Proof.Machine Sys2Proof.Safety

/-- What trap entry leaves unchanged (60_exceptions.md R150). -/
theorem takeTrap_frame (s : State) (c : Trap) :
    SameRegs s (takeTrap s c) ∧ (takeTrap s c).tsv = s.tsv ∧ (takeTrap s c).cyc = s.cyc
      ∧ (takeTrap s c).mmu = s.mmu ∧ (takeTrap s c).extra = s.extra
      ∧ SameCoprocessors s (takeTrap s c) ∧ SameMemory s (takeTrap s c)
      ∧ (takeTrap s c).cfg = s.cfg := by
  simp [SameRegs, SameCoprocessors, SameMemory]

theorem takeTrap_tpc_thisInstruction (s : State) (c : Trap)
    (h : s.cfg.tpcOffset = .thisInstruction) : (takeTrap s c).tpc = s.pc := by
  rw [takeTrap_tpc, h]
  exact BitVec.add_zero s.pc

theorem takeTrap_tpc_nextInstruction (s : State) (c : Trap)
    (h : s.cfg.tpcOffset = .nextInstruction) : (takeTrap s c).tpc = s.pc + 2#32 := by
  rw [takeTrap_tpc, h]
  rfl

/-- Settles O37: the fields trap entry writes, by cause and by `TPC_OFFSET`, and its frame. -/
theorem trapEntrySavesAndVectors : Obligations.TrapEntrySavesAndVectors := by
  intro s c
  refine ⟨takeTrap_tpc_thisInstruction s c, takeTrap_tpc_nextInstruction s c,
    ?memoryAddressing, ?unimplementedInstruction, ?privilegeViolation, ?coprocessorTrap,
    rfl, rfl, rfl, rfl, rfl, rfl, rfl, takeTrap_frame s c⟩
  case memoryAddressing =>
    rintro va rfl
    exact ⟨rfl, rfl⟩
  all_goals
    rintro rfl
    rfl

/-- Settles O38: at the privileged `TRAP_LEVEL` RTT returns to TPC and to the level saved, which
are those of the trapping instruction. -/
theorem rttUndoesTrapEntry : Obligations.RttUndoesTrapEntry := by
  intro s c hoffset hlevel
  exact ⟨_, privileged_body (takeTrap s c) _ hlevel, takeTrap_tpc_thisInstruction s c hoffset, rfl,
    fun _ => rfl, rfl, rfl, rfl, rfl, rfl, rfl, ⟨rfl, rfl⟩, fun _ => rfl⟩

/-- Settles O39: the second entry saves the pc and the level that the first one set. -/
theorem nestedTrapLosesFirstReturn : Obligations.NestedTrapLosesFirstReturn :=
  fun _ _ _ => ⟨rfl, rfl⟩

end Sys2Proof.Proofs.Traps
end

section
/-! PROOFS. The coprocessors (43_coprocessor.md): their own steps, COSTAT and its access check, and
the two transfers of COSET and of COGET. -/

namespace Sys2Proof.Proofs.Coprocessors

open Sys2Proof.Machine Sys2Proof.Config Sys2Proof.Safety

/-! ### A coprocessor's own steps (R107) -/

/-- The steps left until a coprocessor is ready for a register. -/
def stepsLeft (c : CoState) (src : RegNum) : Nat := c.left[src.toNat]'src.isLt

theorem coReady_iff (c : CoState) (src : RegNum) : coReady c src = true ↔ stepsLeft c src = 0 := by
  simp [coReady, stepsLeft]

/-- Each own step counts down the steps left. -/
theorem stepsLeft_coSteps (k : CoId) (src : RegNum) (n : Nat) (c : CoState)
    (hn : n ≤ stepsLeft c src) : stepsLeft (coSteps k n c) src = stepsLeft c src - n := by
  induction n generalizing c with
  | zero => rfl
  | succ n ih =>
    have hone : stepsLeft (coStep k c) src = stepsLeft c src - 1 :=
      coStep_left k c ⟨src.toNat, src.isLt⟩ (Nat.ne_of_gt (Nat.lt_of_lt_of_le n.succ_pos hn))
    rw [coSteps, ih (coStep k c) (by omega), hone]
    omega

theorem coReady_coSteps_stepsLeft (k : CoId) (src : RegNum) (c : CoState) :
    coReady (coSteps k (stepsLeft c src) c) src = true := by
  rw [coReady_iff, stepsLeft_coSteps k src _ c le_rfl, Nat.sub_self]

theorem not_coReady_coSteps (k : CoId) (src : RegNum) (c : CoState) (m : Nat)
    (hm : m < stepsLeft c src) : coReady (coSteps k m c) src = false := by
  rw [Bool.eq_false_iff, Ne, coReady_iff, stepsLeft_coSteps k src m c (Nat.le_of_lt hm)]
  omega

/-! ### The access check (R106, R108) -/

theorem coOk_eq_none (s : State)
    (h : ∀ k, coSelected s.cfg.costatLayout (costatValue s) = some k →
      s.cfg.present[k.val] = false ∨ coEnabled s.cfg.costatLayout (costatValue s) k = false) :
    coOk s = none := by
  cases hk : coOk s with
  | none => rfl
  | some k =>
    obtain ⟨hsel, hpresent, henabled⟩ := (coOk_eq_some s k).1 hk
    have hunusable := h k hsel
    rw [hpresent, henabled] at hunusable
    simp at hunusable

/-- In a state of the invariant COSTAT reads as it is held (10_state.md R28). -/
theorem costatValue_of_inv {s : State} (h : Safety.Inv s) : costatValue s = s.costat := by
  obtain ⟨_, _, hcostat⟩ := h
  have hsplit : s.costat = s.costat &&& s.cfg.costatLayout.implMask
      ||| s.costat &&& ~~~s.cfg.costatLayout.implMask := by
    rw [← BitVec.and_or_distrib_left, BitVec.or_not_self, BitVec.and_allOnes]
  rw [hcostat, BitVec.or_zero] at hsplit
  exact hsplit.symm

/-! ### COSET (R113, R114) -/

theorem exec_coset_costat (srcx : RegNum) (s : State) (hhawk : s.cfg.hasCoprocessors = true) :
    exec (.coset srcx 0#4) s = .next (setCostat s (s.reg srcx)).advance := by
  rcases execCoset_cases srcx 0#4 s with ⟨h, _⟩ | ⟨_, _, e⟩ | ⟨_, h, _⟩ | ⟨_, _, h, _⟩
  · simp [hhawk] at h
  · exact e
  · exact absurd rfl h
  · exact absurd rfl h

theorem exec_coset_register (srcx src : RegNum) (k : CoId) (s : State)
    (hhawk : s.cfg.hasCoprocessors = true) (hsrc : src ≠ 0#4) (hk : coOk s = some k) :
    exec (.coset srcx src) s
      = .next (s.setCo k (coWrite k s.co[k.val] src (s.reg srcx))).advance := by
  rcases execCoset_cases srcx src s with ⟨h, _⟩ | ⟨_, h, _⟩ | ⟨_, _, h, _⟩ | ⟨k', _, _, h, e⟩
  · simp [hhawk] at h
  · exact absurd h hsrc
  · simp [hk] at h
  · obtain rfl : k = k' := Option.some.inj (hk.symm.trans h)
    exact e

theorem exec_coset_unusable (srcx src : RegNum) (s : State)
    (hhawk : s.cfg.hasCoprocessors = true) (hsrc : src ≠ 0#4) (hk : coOk s = none) :
    exec (.coset srcx src) s = .next (takeTrap s .coprocessorTrap) := by
  rcases execCoset_cases srcx src s with ⟨h, _⟩ | ⟨_, h, _⟩ | ⟨_, _, _, e⟩ | ⟨k, _, _, h, _⟩
  · simp [hhawk] at h
  · exact absurd h hsrc
  · exact e
  · simp [hk] at h

/-- A write of COSTAT keeps every coprocessor but the present ones it leaves disabled (R114). -/
theorem setCostat_co_kept (s : State) (v : Word) (k : CoId)
    (h : s.cfg.present[k.val] = false
      ∨ coEnabled s.cfg.costatLayout (setCostat s v).costat k = true) :
    (setCostat s v).co[k.val] = s.co[k.val] := by
  rw [setCostat_costat] at h
  rcases h with h | h <;> simp [coAfterCostat, h]

/-- A write of COSTAT is read back at once. -/
theorem costatValue_setCostat (s : State) (v : Word) :
    costatValue (setCostat s v).advance = v &&& s.cfg.costatLayout.implMask := by
  simp only [costatValue, advance_costat, advance_cfg, setCostat_costat, setCostat_cfg]
  rw [BitVec.and_assoc, BitVec.and_self]

/-! ### COGET (R110 to R112) -/

theorem exec_coget_refused (i : Instr) (dst src : RegNum) (s : State)
    (hi : i = .cogetCostat dst ∨ i = .coget dst src) (hhawk : s.cfg.hasCoprocessors = true)
    (hd : dst = 0#4) (hc : s.cfg.cogetDst0 = .refuse) : exec i s = .refused .cogetDst0 := by
  have hcostat : cogetFromCostat dst s = .refused .cogetDst0 := by
    simp [cogetFromCostat, withCoprocessors, cogetAllowed, hhawk, hd, hc]
  have hregister : cogetFromRegister dst src s = .refused .cogetDst0 := by
    simp [cogetFromRegister, withCoprocessors, cogetAllowed, hhawk, hd, hc]
  rcases hi with rfl | rfl
  · exact hcostat
  · change execCoget dst src s = _
    unfold execCoget
    split
    · exact hcostat
    · exact hregister

theorem exec_cogetCostat (dst : RegNum) (s : State) (hhawk : s.cfg.hasCoprocessors = true)
    (hd : dst ≠ 0#4 ∨ s.cfg.cogetDst0 = .discard) :
    exec (.cogetCostat dst) s = .next (cogetCostatState s dst) := by
  rcases cogetFromCostat_cases dst s with ⟨h, _⟩ | ⟨_, h0, hr, _⟩ | ⟨_, _, e⟩
  · simp [hhawk] at h
  · exact (Levels.not_refused_of_dst hd h0 hr).elim
  · exact e

theorem exec_coget_eq (dst src : RegNum) (s : State) (hsrc : src ≠ 0#4) :
    exec (.coget dst src) s = cogetFromRegister dst src s :=
  if_neg hsrc

theorem exec_coget_register (dst src : RegNum) (k : CoId) (s : State)
    (hhawk : s.cfg.hasCoprocessors = true) (hsrc : src ≠ 0#4)
    (hd : dst ≠ 0#4 ∨ s.cfg.cogetDst0 = .discard) (hk : coOk s = some k) :
    exec (.coget dst src) s = .next (cogetState s k dst src) := by
  rw [exec_coget_eq dst src s hsrc]
  rcases cogetFromRegister_cases dst src s with
    ⟨h, _⟩ | ⟨_, h0, hr, _⟩ | ⟨_, _, h, _⟩ | ⟨k', _, _, h, e⟩
  · simp [hhawk] at h
  · exact (Levels.not_refused_of_dst hd h0 hr).elim
  · simp [hk] at h
  · obtain rfl : k = k' := Option.some.inj (hk.symm.trans h)
    exact e

theorem exec_coget_unusable (dst src : RegNum) (s : State)
    (hhawk : s.cfg.hasCoprocessors = true) (hsrc : src ≠ 0#4)
    (hd : dst ≠ 0#4 ∨ s.cfg.cogetDst0 = .discard) (hk : coOk s = none) :
    exec (.coget dst src) s = .next (takeTrap s .coprocessorTrap) := by
  rw [exec_coget_eq dst src s hsrc]
  rcases cogetFromRegister_cases dst src s with
    ⟨h, _⟩ | ⟨_, h0, hr, _⟩ | ⟨_, _, _, e⟩ | ⟨k', _, _, h, _⟩
  · simp [hhawk] at h
  · exact (Levels.not_refused_of_dst hd h0 hr).elim
  · exact e
  · simp [hk] at h

/-- A COGET writes its register among the general registers, and no other. -/
theorem sameRegsExcept_cogetState (s : State) (k : CoId) (dst src : RegNum) :
    SameRegsExcept s (cogetState s k dst src) dst :=
  fun r hr => reg_setReg_other _ dst r _ hr

/-- The transfer of a COGET from coprocessor k is what `CoRead` answers at the end of the hold, and
nothing else of the machine changes (R111). -/
theorem cogetState_effect (s : State) (k : CoId) (dst src : RegNum) (c : CoState)
    (hc : coWait k src s.co[k.val] = c) :
    (dst ≠ 0#4 → (cogetState s k dst src).reg dst = (coRead k c src).value)
      ∧ (cogetState s k dst src).psw.n = (coRead k c src).flags.n
      ∧ (cogetState s k dst src).psw.z = (coRead k c src).flags.z
      ∧ (cogetState s k dst src).psw.v = (coRead k c src).flags.v
      ∧ (cogetState s k dst src).psw.c = (coRead k c src).flags.c
      ∧ (cogetState s k dst src).co[k.val] = (coRead k c src).next
      ∧ (∀ j : CoId, j ≠ k → (cogetState s k dst src).co[j.val] = s.co[j.val])
      ∧ (cogetState s k dst src).costat = s.costat ∧ SamePswExceptNzvc s (cogetState s k dst src)
      ∧ (cogetState s k dst src).pc = s.pc + 2#32
      ∧ SameRegsExcept s (cogetState s k dst src) dst ∧ SameSpecial s (cogetState s k dst src)
      ∧ SameMemory s (cogetState s k dst src) ∧ (cogetState s k dst src).cfg = s.cfg := by
  subst hc
  refine ⟨fun hd => reg_setReg_same _ dst _ hd, rfl, rfl, rfl, rfl, ?_, fun j hj => ?_, rfl,
    ⟨rfl, rfl, rfl⟩, rfl, sameRegsExcept_cogetState s k dst src,
    ⟨rfl, rfl, rfl, rfl, rfl, rfl⟩, fun _ => rfl, rfl⟩
  · rw [cogetState_co, Vector.getElem_set_self]
  · have hne : k.val ≠ j.val := fun e => hj (Fin.ext e.symm)
    simp only [cogetState_co, Vector.getElem_set_ne _ _ hne]

/-! ### The statements -/

/-- Settles O26: the masked store, and the loss it may cause. -/
theorem cosetWritesCostat : Obligations.CosetWritesCostat := by
  intro srcx s hhawk
  refine ⟨_, exec_coset_costat srcx s hhawk, ?_, setCostat_co_kept s _, rfl, fun _ => rfl, rfl,
    ⟨rfl, rfl, rfl, rfl, rfl, rfl⟩, fun _ => rfl, rfl⟩
  rw [CpuAccesses.zero_or_reg_eq]
  rfl

/-- Settles O27: the write of one coprocessor. -/
theorem cosetWritesSelectedCoprocessor : Obligations.CosetWritesSelectedCoprocessor := by
  intro srcx src k s hhawk hsrc hsel hpresent henabled
  have hk : coOk s = some k := (coOk_eq_some s k).2 ⟨hsel, hpresent, henabled⟩
  refine ⟨_, exec_coset_register srcx src k s hhawk hsrc hk, ?_, fun j hj => ?_, rfl, rfl,
    fun _ => rfl, rfl, ⟨rfl, rfl, rfl, rfl, rfl, rfl⟩, fun _ => rfl, rfl⟩
  · rw [CpuAccesses.zero_or_reg_eq, advance_co, setCo_co, Vector.getElem_set_self]
  · have hne : k.val ≠ j.val := fun e => hj (Fin.ext e.symm)
    simp only [advance_co, setCo_co, Vector.getElem_set_ne _ _ hne]

/-- Settles O28: the refusal of dst = 0, or the transfer with the flags of COSTAT's value. -/
theorem cogetReadsCostat : Obligations.CogetReadsCostat := by
  intro dst s hhawk
  refine ⟨exec_coget_refused _ dst 0#4 s (.inl rfl) hhawk, fun hd => ?_⟩
  exact ⟨_, exec_cogetCostat dst s hhawk hd, fun h => reg_setReg_same s dst _ h, rfl, rfl, rfl,
    beq_iff_eq, ⟨rfl, rfl, rfl⟩, rfl, fun r hr => reg_setReg_other s dst r _ hr,
    ⟨rfl, rfl, rfl, rfl, rfl, rfl⟩, ⟨rfl, rfl⟩, fun _ => rfl, rfl⟩

/-- Settles O29: the refusal of dst = 0, or the transfer without a hold. -/
theorem cogetReadsReadyCoprocessor : Obligations.CogetReadsReadyCoprocessor := by
  intro dst src s hhawk hsrc
  refine ⟨exec_coget_refused _ dst src s (.inr rfl) hhawk,
    fun k hd hsel hpresent henabled hready => ?_⟩
  have hk : coOk s = some k := (coOk_eq_some s k).2 ⟨hsel, hpresent, henabled⟩
  exact ⟨_, exec_coget_register dst src k s hhawk hsrc hd hk,
    cogetState_effect s k dst src _ (coWait_of_ready k src _ hready)⟩

/-- Settles O30: the hold lasts the steps left, before which the coprocessor is not ready, and ends
in the transfer. -/
theorem cogetWaitsUntilReady : Obligations.CogetWaitsUntilReady := by
  intro dst src k s hhawk hsrc hd hk
  exact ⟨stepsLeft s.co[k.val] src, _, exec_coget_register dst src k s hhawk hsrc hd hk,
    not_coReady_coSteps k src _, coReady_coSteps_stepsLeft k src _,
    cogetState_effect s k dst src _ rfl⟩

/-- Settles O31: the steps left are enough. -/
theorem coprocessorsBecomeReady : Obligations.CoprocessorsBecomeReady :=
  fun k c src => ⟨stepsLeft c src, coReady_coSteps_stepsLeft k src c⟩

/-- Settles O32: the access check then answers no coprocessor. -/
theorem unusableCoprocessorTraps : Obligations.UnusableCoprocessorTraps := by
  intro f src s hhawk hsrc hunusable
  have hk := coOk_eq_none s hunusable
  exact ⟨exec_coset_unusable f src s hhawk hsrc hk,
    fun hd => exec_coget_unusable f src s hhawk hsrc hd hk⟩

/-- Settles O33: each of the three begins with the question of a Sparrowhawk. -/
theorem sparrowhawkCoprocessorInstructionsTrap :
    Obligations.SparrowhawkCoprocessorInstructionsTrap := by
  intro f src s hsparrow
  have htrap (body : Result) :
      withCoprocessors s body = .next (takeTrap s .unimplementedInstruction) := by
    simp [withCoprocessors, hsparrow]
  refine ⟨htrap _, htrap _, ?_⟩
  by_cases hsrc : src = 0#4
  · exact (if_pos hsrc).trans (htrap _)
  · exact (if_neg hsrc).trans (htrap _)

/-- Settles O34: the read after the write sees the implemented bits that were written. -/
theorem costatReadsBackImplementedBits : Obligations.CostatReadsBackImplementedBits := by
  intro srcx dst s hhawk hd
  refine ⟨_, _, exec_coset_costat srcx s hhawk, exec_cogetCostat dst _ hhawk (.inl hd), ?_, ?_⟩
  · rw [← costatValue_setCostat]
    exact reg_setReg_same _ dst _ hd
  · rw [← costatValue_setCostat]
    exact beq_iff_eq

/-- Settles O35: COSTAT then reads as 0, which selects and enables none by the constraints on the
layout (R106 c). -/
theorem cosetOfZeroDeselects : Obligations.CosetOfZeroDeselects := by
  rintro f src s ⟨_, ⟨_, _, _, _, hselect, henable⟩, _⟩ hhawk hsrc
  have hvalue : costatValue (setCostat s 0#32).advance = 0#32 := by
    rw [costatValue_setCostat]
    exact BitVec.zero_and
  have hselected : coSelected s.cfg.costatLayout
      (costatValue (setCostat s 0#32).advance) = none := by rw [hvalue, hselect]
  have hok : coOk (setCostat s 0#32).advance = none :=
    coOk_eq_none _ fun k hk => by
      rw [advance_cfg, setCostat_cfg, hselected] at hk
      cases hk
  refine ⟨_, exec_coset_costat 0#4 s hhawk, hselected, hok, fun k => ?_,
    exec_coset_unusable f src _ hhawk hsrc hok,
    fun hd => exec_coget_unusable f src _ hhawk hsrc hd hok⟩
  rw [reg_zero, hvalue]
  exact henable k

/-- Settles O36: by the constraints on the layout no implemented bits enable it (R106 a). -/
theorem absentCoprocessorIsNeverEnabled : Obligations.AbsentCoprocessorIsNeverEnabled := by
  intro k s hinv habsent
  have hread := costatValue_of_inv hinv
  obtain ⟨_, ⟨_, _, hlayout, _⟩, _⟩ := hinv
  have hvalue : coEnabled s.cfg.costatLayout (costatValue s) k = false :=
    hlayout k habsent s.costat
  refine ⟨hread ▸ hvalue, hvalue, fun hok => ?_⟩
  obtain ⟨_, hpresent, _⟩ := (coOk_eq_some s k).1 hok
  rw [habsent] at hpresent
  cases hpresent

end Sys2Proof.Proofs.Coprocessors
end

section
/-! PROOFS. The step (00_scope.md R8): what it answers for each outcome of the fetch, what an
instruction can answer, and from there where a step is refused and where a run ends. -/

namespace Sys2Proof.Proofs.Steps

open Sys2Proof.Machine Sys2Proof.Config Sys2Proof.Safety

/-! ### The step by what the fetch gives -/

section ByFetch

variable {s : State}

theorem step_of_oddPc (hf : fetch s = .oddPc) : step s = .refused .oddPc := by
  simp [step, stepWith, hf]

theorem step_of_unreadable {va : Word} (hf : fetch s = .unreadable va) :
    step s = .next (takeTrap (beforeExec s) (.memoryAddressing va)) := by
  simp [step, stepWith, hf]

theorem step_of_decoded {w : Half} {i : Instr} (hf : fetch s = .word w)
    (hd : decode w = .ok i) : step s = exec i (beforeExec s) := by
  simp [step, stepWith, hf, hd]

/-- A decode error carries the word that was decoded. -/
theorem refusalOfDecode_eq {w : Half} {e : DecodeError} (hd : decode w = .error e) :
    refusalOfDecode w e = .notSpecialInstruction w := by
  unfold decode at hd
  split at hd
  · cases hd
    rfl
  · split at hd <;> cases hd
    rfl

theorem step_of_not_decoded {w : Half} {e : DecodeError} (hf : fetch s = .word w)
    (hd : decode w = .error e) : step s = .refused (.notSpecialInstruction w) := by
  rw [← refusalOfDecode_eq hd]
  simp [step, stepWith, hf, hd]

theorem fetch_eq_oddPc_iff : fetch s = .oddPc ↔ s.pc[0] = true := by
  unfold fetch
  split
  · simp_all
  · split <;> simp_all

/-- The fetch of two bytes at an even pc. -/
theorem fetch_eq_word {lower higher : Byte} (heven : s.pc[0] = false)
    (hlower : Memory.readByte s.mem s.pc.toNat = some lower)
    (hhigher : Memory.readByte s.mem (s.pc + 1#32).toNat = some higher) :
    fetch s = .word (higher ++ lower) :=
  (fetch_word s _).2 ⟨heven, lower, higher, hlower, hhigher, rfl⟩

/-- The fetch names the first of its two addresses that is not admitted. -/
theorem fetch_eq_unreadable {va : Word} (heven : s.pc[0] = false)
    (h : va = s.pc ∧ Memory.readByte s.mem s.pc.toNat = none
      ∨ va = s.pc + 1#32 ∧ (∃ b, Memory.readByte s.mem s.pc.toNat = some b)
        ∧ Memory.readByte s.mem (s.pc + 1#32).toNat = none) :
    fetch s = .unreadable va := by
  rcases h with ⟨rfl, hlower⟩ | ⟨rfl, ⟨b, hlower⟩, hhigher⟩
  · simp only [fetch, heven, hlower, Bool.false_eq_true, if_false]
  · simp only [fetch, heven, hlower, hhigher, Bool.false_eq_true, if_false]

end ByFetch

/-! ### The fields of a fetched word -/

theorem opField_append (lower higher : Byte) :
    opField (higher ++ lower) = lower.extractLsb' 4 4 := by
  apply BitVec.eq_of_getLsbD_eq
  intro j hj
  rw [opField, BitVec.getLsbD_extractLsb', BitVec.getLsbD_extractLsb']
  exact congrArg _ (BitVec.getLsbD_append.trans (if_pos (by omega)))

theorem fnField_append (lower higher : Byte) :
    fnField (higher ++ lower) = higher.extractLsb' 4 4 := by
  apply BitVec.eq_of_getLsbD_eq
  intro j hj
  have hsub : 12 + j - 8 = 4 + j := by omega
  rw [fnField, BitVec.getLsbD_extractLsb', BitVec.getLsbD_extractLsb', ← hsub]
  exact congrArg _ (BitVec.getLsbD_append.trans (if_neg (by omega)))

theorem getElem_fifteen_append (lower higher : Byte) :
    (higher ++ lower : Half)[15] = higher[7] :=
  BitVec.getLsbD_append (x := higher) (y := lower) (i := 15)

/-! ### What an instruction can answer -/

/-- The answers of an instruction: a next state, or a refusal, each with the choice of a parameter or
the row of the opcode table that brings it about. -/
inductive ExecAnswer (i : Instr) (s : State) : Result → Prop where
  /-- a next state, a trap among them -/
  | next (t : State) : ExecAnswer i s (.next t)
  /-- a reserved word under `RESERVED_POLICY = refuse` -/
  | reserved (why : Refusal) (hpolicy : s.cfg.reservedPolicy = .refuse)
      (hwhy : ∀ w, why ≠ .notSpecialInstruction w) : ExecAnswer i s (.refused why)
  /-- a COGET with dst = 0 under `COGET_DST0 = refuse` -/
  | cogetDst0 (hparam : s.cfg.cogetDst0 = .refuse) : ExecAnswer i s (.refused .cogetDst0)
  /-- fn 0110 or 0111 -/
  | undefinedFunctionCode
      (hi : ∃ dst src, i = .undefinedFn6 dst src ∨ i = .undefinedFn7 dst src) :
      ExecAnswer i s (.refused .undefinedFunctionCode)

section Answers

variable (i : Instr) (s : State)

theorem reserved_answer (why : Refusal) (hwhy : ∀ w, why ≠ .notSpecialInstruction w) :
    ExecAnswer i s (reserved why s) := by
  rcases reserved_cases why s with ⟨hpolicy, e⟩ | ⟨_, e⟩ <;> rw [e]
  · exact .reserved why hpolicy hwhy
  · exact .next _

theorem adjust_answer (a : Word) (dst : RegNum) : ExecAnswer i s (adjust a dst s) := by
  rcases adjust_cases a dst s with ⟨_, e⟩ | ⟨_, e⟩ <;> rw [e]
  · exact reserved_answer i s _ (by simp)
  · exact .next _

theorem privileged_answer (t : State) : ExecAnswer i s (privileged s (.next t)) := by
  rcases privileged_cases s (.next t) with ⟨_, e⟩ | ⟨_, e⟩ <;> rw [e] <;> exact .next _

theorem cogetFromCostat_answer (dst : RegNum) : ExecAnswer i s (cogetFromCostat dst s) := by
  rcases cogetFromCostat_cases dst s with ⟨_, e⟩ | ⟨_, _, hparam, e⟩ | ⟨_, _, e⟩ <;> rw [e]
  · exact .next _
  · exact .cogetDst0 hparam
  · exact .next _

theorem cogetFromRegister_answer (dst src : RegNum) :
    ExecAnswer i s (cogetFromRegister dst src s) := by
  rcases cogetFromRegister_cases dst src s with
    ⟨_, e⟩ | ⟨_, _, hparam, e⟩ | ⟨_, _, _, e⟩ | ⟨_, _, _, _, e⟩ <;> rw [e]
  · exact .next _
  · exact .cogetDst0 hparam
  · exact .next _
  · exact .next _

theorem execPlus_answer (dst src : RegNum) : ExecAnswer i s (execPlus dst src s) := by
  rcases execPlus_cases dst src s with ⟨_, e⟩ | ⟨_, e⟩ <;> rw [e]
  · exact reserved_answer i s _ (by simp)
  · exact .next _

theorem execCpuUndefined_answer (access : CpuAccess) (dst : RegNum) (src : ExtraReg) :
    ExecAnswer i s (execCpuUndefined access dst src s) := by
  rcases execCpuUndefined_cases access dst src s with ⟨_, e⟩ | ⟨_, _, e⟩ | ⟨_, _, e⟩ <;> rw [e]
  · exact .next _
  · exact .next _
  · exact reserved_answer i s _ (by simp)

theorem exec_answer : ExecAnswer i s (exec i s) := by
  cases i with
  | cpuset | cpuget | cpugetPc | rtt => exact privileged_answer _ s _
  | coset srcx src =>
    obtain ⟨t, e⟩ := Levels.execCoset_completes srcx src s
    exact (congrArg (ExecAnswer (.coset srcx src) s) e).mpr (.next t)
  | cogetCostat dst => exact cogetFromCostat_answer _ s dst
  | coget dst src =>
    change ExecAnswer _ s (execCoget dst src s)
    unfold execCoget
    split
    · exact cogetFromCostat_answer _ s dst
    · exact cogetFromRegister_answer _ s dst src
  | plus dst src => exact execPlus_answer _ s dst src
  | adjustBcd | adjustEx3 | adjustCmsb | adjustSsq | adjustPlus1 | adjustPlus2 | adjustPlus4
  | adjustPlus8 | adjustPlus16 | adjustPlus32 | adjustPlus64 | adjustPlus128 =>
    exact adjust_answer _ s _ _
  | reservedAdjustSel0 | reservedAdjustSel1 | reservedAdjustSel6 | reservedAdjustSel7
  | reservedAdjustDst0 | reservedPlusDst0 => exact reserved_answer _ s _ (by simp)
  | cpuUndefined access dst src => exact execCpuUndefined_answer _ s access dst src
  | undefinedFn6 dst src => exact .undefinedFunctionCode ⟨dst, src, .inl rfl⟩
  | undefinedFn7 dst src => exact .undefinedFunctionCode ⟨dst, src, .inr rfl⟩

/-- The refusal of other words is the step's and no instruction's. -/
theorem exec_ne_notSpecialInstruction (w : Half) :
    exec i s ≠ .refused (.notSpecialInstruction w) := by
  intro h
  have ha := exec_answer i s
  rw [h] at ha
  cases ha with
  | reserved _ _ hwhy => exact hwhy w rfl

/-- Where the parameters refuse nothing, only fn 0110 and 0111 have no next state. -/
theorem exec_completes (hpolicy : s.cfg.reservedPolicy = .trap)
    (hparam : s.cfg.cogetDst0 = .discard)
    (hi : ¬ ∃ dst src, i = .undefinedFn6 dst src ∨ i = .undefinedFn7 dst src) :
    ∃ t, exec i s = .next t := by
  have ha := exec_answer i s
  generalize exec i s = r at ha
  cases ha with
  | next t => exact ⟨t, rfl⟩
  | reserved _ hrefuse => simp [hpolicy] at hrefuse
  | cogetDst0 hrefuse => simp [hparam] at hrefuse
  | undefinedFunctionCode hfn => exact absurd hfn hi

end Answers

/-- The function code of a word that decodes to one of the two undefined rows. -/
theorem fnField_of_undefinedFn {w : Half} {i : Instr} (hd : decode w = .ok i)
    (hi : ∃ dst src, i = .undefinedFn6 dst src ∨ i = .undefinedFn7 dst src) :
    6 ≤ (fnField w).toNat := by
  obtain ⟨henc, _⟩ := Encoding.encodeOfDecodedWord w i hd
  rw [← henc]
  obtain ⟨dst, src, rfl | rfl⟩ := hi <;> rw [encode, fnField_assemble] <;> decide

/-! ### What precedes the execution -/

/-- Each coprocessor has taken some number of its own steps, none where it is absent
(10_state.md R30). -/
theorem beforeExec_co_eq_coSteps (s : State) (k : CoId) :
    ∃ n, (beforeExec s).co[k.val] = coSteps k n s.co[k.val] := by
  simp only [beforeExec_co, runCoprocessors, Vector.getElem_ofFn]
  split
  · exact ⟨_, rfl⟩
  · exact ⟨0, rfl⟩

/-! ### The word that is placed -/

theorem and_not_one_of_even {a : Word} (h : a[0] = false) : a &&& ~~~1#32 = a := by
  apply BitVec.eq_of_getLsbD_eq
  intro j hj
  rw [BitVec.getLsbD_and, BitVec.getLsbD_not, BitVec.getLsbD_one]
  by_cases hj0 : j = 0
  · subst hj0
    simpa using h
  · simp [hj, hj0]

/-- The two bytes of a word, as the store takes them, make the word. -/
theorem bytes_append (w : Half) :
    (BitVec.ofNat 8 (w.toNat / 256) ++ BitVec.ofNat 8 w.toNat : Half) = w := by
  apply BitVec.eq_of_toNat_eq
  have hlt := w.isLt
  rw [BitVec.toNat_append, BitVec.toNat_ofNat, BitVec.toNat_ofNat,
    ← Nat.shiftLeft_add_eq_or_of_lt (Nat.mod_lt _ (by decide)), Nat.shiftLeft_eq]
  omega

/-- A two-byte store writes the low byte at the address and the high byte at the next one. -/
theorem write_two (m : Memory) (a : Word) (v : Nat) :
    Memory.write m a 2 v
      = Memory.writeByte (Memory.writeByte m a.toNat (BitVec.ofNat 8 v)) (a + 1#32).toNat
          (BitVec.ofNat 8 (v / 256)) := rfl

theorem toNat_ne_toNat_add_one (a : Word) : a.toNat ≠ (a + 1#32).toNat := by
  bv_omega

theorem withFetchWord_pc (s : State) (v : Nat) (heven : s.pc[0] = false) :
    (s.withFetchWord 16 v).pc = s.pc :=
  and_not_one_of_even heven

theorem withFetchWord_mem (s : State) (w : Half) (heven : s.pc[0] = false) :
    (s.withFetchWord 16 w.toNat).mem = Memory.write s.mem s.pc 2 w.toNat := by
  change Memory.write s.mem (s.pc &&& ~~~1#32) 2 (w.toNat % 2 ^ 16) = _
  rw [and_not_one_of_even heven, Nat.mod_eq_of_lt w.isLt]

theorem fetch_withFetchWord (s : State) (w : Half) (heven : s.pc[0] = false) :
    fetch (s.withFetchWord 16 w.toNat) = .word w := by
  have hpc := withFetchWord_pc s w.toNat heven
  have hmem := withFetchWord_mem s w heven
  rw [write_two] at hmem
  rw [fetch_word, hpc, hmem]
  refine ⟨heven, _, _, ?_, readByte_writeByte_same _ _ _, (bytes_append w).symm⟩
  rw [readByte_writeByte_other _ _ _ _ (toNat_ne_toNat_add_one s.pc), readByte_writeByte_same]

/-! ### The statements -/

/-- Settles O40: the word fetched decodes, and what precedes the execution has its frame. -/
theorem stepRunsDecodedInstruction : Obligations.StepRunsDecodedInstruction := by
  intro s lower higher i heven hlower hhigher hd
  exact ⟨step_of_decoded (fetch_eq_word heven hlower hhigher) hd, rfl, fun _ => rfl, rfl, rfl, rfl,
    rfl, rfl, rfl, rfl, fun _ => rfl, rfl, beforeExec_co_eq_coSteps s⟩

/-- Settles O41: trap entry with the address that the fetch names. -/
theorem stepTrapsOnUnadmittedFetch : Obligations.StepTrapsOnUnadmittedFetch := by
  intro s va heven h
  refine ⟨_, step_of_unreadable (fetch_eq_unreadable heven h), rfl, rfl, rfl, ?_, rfl,
    fun _ => rfl, rfl, rfl, rfl, rfl, beforeExec_co_eq_coSteps s, fun _ => rfl, rfl⟩
  rw [takeTrap_tpc, beforeExec_pc, beforeExec_cfg]
  cases s.cfg.tpcOffset <;> rfl

/-- Settles O42: the fetch of an odd pc, or a word outside the opcode map. -/
theorem stepRefusesOddPcAndOtherWords : Obligations.StepRefusesOddPcAndOtherWords := by
  refine fun s => ⟨fun hodd => step_of_oddPc (fetch_eq_oddPc_iff.2 hodd), ?_⟩
  intro lower higher heven hlower hhigher hother
  have hf := fetch_eq_word heven hlower hhigher
  cases hd : decode (higher ++ lower) with
  | error e => exact step_of_not_decoded hf hd
  | ok i =>
    obtain ⟨hop, hbit⟩ := (Encoding.decodeFollowsOpcodeMap (higher ++ lower)).1.1 ⟨i, hd⟩
    rw [← opField_append lower higher, ← getElem_fifteen_append lower higher] at hother
    rcases hother with h | h
    · exact absurd hop h
    · rw [hbit] at h
      cases h

/-- Settles O43: the fetch traps or gives a word with fn below 6, whose instruction completes. -/
theorem everyOtherStepHasNextState : Obligations.EveryOtherStepHasNextState := by
  intro s hpolicy hparam heven hwords
  cases hf : fetch s with
  | oddPc =>
    rw [fetch_eq_oddPc_iff, heven] at hf
    cases hf
  | unreadable va => exact ⟨_, step_of_unreadable hf⟩
  | word w =>
    obtain ⟨_, lower, higher, hlower, hhigher, rfl⟩ := (fetch_word s w).1 hf
    obtain ⟨hop, hfn⟩ := hwords lower higher hlower hhigher
    rw [← opField_append lower higher] at hop
    rw [← fnField_append lower higher] at hfn
    have hd := (Encoding.decode_eq_ok_iff (wordOfBytes lower higher) _).2
      ⟨hop, hfn.trans (by decide), rfl⟩
    rw [step_of_decoded hf hd]
    refine exec_completes _ _ hpolicy hparam fun hi => ?_
    exact absurd (fnField_of_undefinedFn hd hi) (Nat.not_le_of_lt hfn)

/-- Settles O44: of the answers of a step only that to a word which does not decode is this
refusal. -/
theorem runEndsAtEndPcOrOtherWord : Obligations.RunEndsAtEndPcOrOtherWord := by
  intro endPc s
  refine or_congr_right ⟨fun ⟨w, e, hf, hd⟩ => ⟨w, step_of_not_decoded hf hd⟩, fun ⟨w, hs⟩ => ?_⟩
  cases hf : fetch s with
  | oddPc =>
    rw [step_of_oddPc hf] at hs
    cases hs
  | unreadable va =>
    rw [step_of_unreadable hf] at hs
    cases hs
  | word w' =>
    cases hd : decode w' with
    | error e => exact ⟨w', e, rfl, hd⟩
    | ok i =>
      rw [step_of_decoded hf hd] at hs
      exact absurd hs (exec_ne_notSpecialInstruction i _ w)

/-- Settles O45: the two bytes stored at the pc are the two bytes fetched, and no other address is
written. -/
theorem placedWordIsTheOneRun : Obligations.PlacedWordIsTheOneRun := by
  intro s w i heven hd
  refine ⟨step_of_decoded (fetch_withFetchWord s w heven) hd, withFetchWord_pc s w.toNat heven,
    fun a hlower hhigher => ?_⟩
  rw [withFetchWord_mem s w heven, write_two, readByte_writeByte_other _ _ _ _ hhigher,
    readByte_writeByte_other _ _ _ _ hlower]

end Sys2Proof.Proofs.Steps
end
